-- ==== Sys2Proof/Word.lean ====
section
/-! DEFINITION. The words of the IMB encoder block (spec/00_scope.md R3, R6, R8, R9): every value is an
unsigned bit vector of a stated width, bit 0 its least significant bit. -/

namespace Sys2Proof

/-- A bus data word, a command word: 32 bits (R51, R80). -/
abbrev Word := BitVec 32

/-- A word index of the host register space: 6 bits (R50, R51). -/
abbrev Index := BitVec 6

/-- The binary data `D`: `DW` = 102 bits (R6, R23). -/
abbrev Payload := BitVec 102

/-- A frame check sequence: `FW` = 11 bits (R6, R24). -/
abbrev Fcs := BitVec 11

/-- A codeword register: 13 bits (R8, R25). -/
abbrev Codeword := BitVec 13

/-- A character register, a character-ROM entry: `CHW` = 13 bits (R6, R26). -/
abbrev Character := BitVec 13

/-- A bar: 2 bits, bit 1 the ascender and bit 0 the descender (R27, R161, R162). -/
abbrev Bar := BitVec 2

/-- A status code held in `ERR`: 4 bits (R29, R201). -/
abbrev StatusCode := BitVec 4

end Sys2Proof
end

