-- ==== Sys2Proof/HostSyntax.lean ====
section
/-! DEFINITION. What stands on the other side of the host port: the registers of the map (spec/20_memory.md R62), bus
transactions (R51), and the host script notation of spec/30_encoding.md R88 and R89. -/

namespace Sys2Proof

/-- The registers of the host register map that are not reserved (R62). -/
inductive Reg where
  | id
  | cmd
  | status
  | data (k : Fin 4)
  | fcs
  | cw (i : Fin 10)
  | ch (i : Fin 10)
  | bar (j : Fin 5)
  deriving DecidableEq, Repr

/-- How the host may use a register (R62): read-only, write-only, read-write. -/
inductive Access where
  | ro
  | wo
  | rw
  deriving DecidableEq, Repr

/-- A host bus transaction: one whole 32-bit word, no byte enables (R51). -/
inductive Transaction where
  | read (a : Index)
  | write (a : Index) (v : Word)
  deriving DecidableEq, Repr

/-- A register operand of a host script statement: a name of the map or a bracketed word index (R88). -/
inductive RegOperand where
  | named (r : Reg)
  | bracketed (a : Index)
  deriving DecidableEq, Repr

/-- A host script statement (R88) with labels still symbolic; a label is named by a number. -/
inductive Stmt where
  | wr (reg : RegOperand) (imm : Word)
  | rd (reg : RegOperand)
  | label (l : Nat)
  | bnz (reg : RegOperand) (mask : Word) (l : Nat)
  deriving DecidableEq, Repr

/-- A host action the host agent performs in one turn: a statement of R88 with its register turned into a word index
and its label into the position of the action the label names. -/
inductive HostOp where
  | wr (a : Index) (v : Word)
  | rd (a : Index)
  | bnz (a : Index) (mask : Word) (target : Nat)
  deriving DecidableEq, Repr

/-- The agents that take steps (spec/00_scope.md R12). -/
inductive Agent where
  /-- The host performs its next bus transaction. -/
  | host
  /-- The engine performs the pending command. -/
  | engine
  /-- The reset environment asserts reset (spec/70_reset_and_hazards.md R230). -/
  | reset
  deriving DecidableEq, Repr

end Sys2Proof
end

