-- ==== Sys2Proof/Syntax.lean ====
section
/-! DEFINITION. The commands of the block: one constructor per row of spec/opcode_table.json (spec/30_encoding.md R81).
No command names a register or carries an immediate (R86), so no constructor has an operand. -/

namespace Sys2Proof

/-- The eight commands, in the order of their opcodes (R81). -/
inductive Instr where
  /-- Do nothing but report success (R181). -/
  | nop
  /-- Compute the frame check sequence of `D` (R100). -/
  | crc
  /-- Decompose `D` into ten raw codewords (R120). -/
  | decomp
  /-- Apply the orientation and the FCS-high-bit adjustment, once (R124). -/
  | adjust
  /-- Look up the ten characters and complement those the FCS selects (R140). -/
  | charmap
  /-- Form the 65 bars from the characters (R160). -/
  | barmap
  /-- Run the whole pipeline from `D`, all or nothing (R182). -/
  | encode
  /-- Discard every result (R183). -/
  | clear
  deriving DecidableEq, Repr

end Sys2Proof
end

