-- ==== Sys2Proof/Config.lean ====
section
/-! DEFINITION. The configuration of a block (spec/00_scope.md R7): the contents of the two ROMs and the latency, which no
step changes, the raw image a configuration is loaded from (spec/30_encoding.md R87), and the free values of the model. -/

namespace Sys2Proof

/-- A coordinate `(characterIndex, bitIndex)`, in range by its type (R7, R65). -/
structure Coord where
  chr : Fin 10
  bit : Fin 13
  deriving DecidableEq, Repr, Inhabited

/-- A bar-ROM entry: the ascender source and the descender source of one bar (R65). -/
structure BarEntry where
  asc  : Coord
  desc : Coord
  deriving DecidableEq, Repr, Inhabited

/-- The parameters a block is built with (R7). -/
structure Config where
  /-- `CHAR_ROM : Fin 1365 -> bits(13)`. -/
  charRom     : Vector Character 1365
  /-- `BAR_ROM : Fin 65 -> ((Fin 10 x Fin 13) x (Fin 10 x Fin 13))`. -/
  barRom      : Vector BarEntry 65
  /-- `LAT(op) - 1` for the eight commands in opcode order, so that every `LAT(op)` is at least 1. -/
  spareCycles : Vector Nat 8
  deriving DecidableEq, Repr, Inhabited

/-- A configuration as its tables are written down, before it is checked (R87): bar entries are 16-bit words. -/
structure ConfigImage where
  charWords   : Vector Character 1365
  barWords    : Vector (BitVec 16) 65
  spareCycles : Vector Nat 8
  deriving DecidableEq, Repr, Inhabited

/-- The configuration of the block that `State.reset` stands for. The spec leaves the contents of both ROMs and the
latency open (R7, D16, D34; U3, U4, U6), so it has no body: nothing can be proved of its contents (log entry 4). -/
opaque Config.installed : Config

/-- The `n`-th value of `draw()`, "a free input under no law" (R11, R52; U1, U2): no body (log entry 3). -/
opaque Config.draw : Nat → Word

end Sys2Proof
end

