-- ==== Sys2Proof/Machine/Tables.lean ====
section
/-! DEFINITION. The form of the table entries of a configuration (spec/30_encoding.md R87): the four fields of a 16-bit
bar-ROM word, the entry a legal word stands for, and the word of an entry. -/

namespace Sys2Proof.Machine

/-- Bits 15:12, the ascender character index (R87). -/
def barWordAc (w : BitVec 16) : Nat := (w.extractLsb' 12 4).toNat

/-- Bits 11:8, the ascender bit index (R87). -/
def barWordAb (w : BitVec 16) : Nat := (w.extractLsb' 8 4).toNat

/-- Bits 7:4, the descender character index (R87). -/
def barWordDc (w : BitVec 16) : Nat := (w.extractLsb' 4 4).toNat

/-- Bits 3:0, the descender bit index (R87). -/
def barWordDb (w : BitVec 16) : Nat := (w.extractLsb' 0 4).toNat

/-- The entry a bar-ROM word stands for; none where a character index is above 9 or a bit index above 12 (R87, U5). -/
def barEntryOfWord (w : BitVec 16) : Option BarEntry :=
  if h : (barWordAc w < 10 ∧ barWordAb w < 13) ∧ (barWordDc w < 10 ∧ barWordDb w < 13) then
    some { asc := ⟨⟨barWordAc w, h.1.1⟩, ⟨barWordAb w, h.1.2⟩⟩
           desc := ⟨⟨barWordDc w, h.2.1⟩, ⟨barWordDb w, h.2.2⟩⟩ }
  else none

/-- The 16-bit word of an entry, `ac:ab:dc:db` in four 4-bit fields (R87). -/
def barWordOfEntry (e : BarEntry) : BitVec 16 :=
  BitVec.ofNat 16 (e.asc.chr.val * 2 ^ 12 + e.asc.bit.val * 2 ^ 8 + e.desc.chr.val * 2 ^ 4 + e.desc.bit.val)

end Sys2Proof.Machine
end

