-- ==== Sys2Proof/WellFormed.lean ====
section
/-! DEFINITION. What is well formed: a command (always: it has no operand), a command word, a bar-ROM word and a
configuration image (spec/30_encoding.md R87), and a host script with symbolic labels (R88). -/

namespace Sys2Proof

/-- A command has no operand that could be out of range (R86), so every command is well formed. -/
def Instr.wellFormed : Instr → Bool
  | .nop     => true
  | .crc     => true
  | .decomp  => true
  | .adjust  => true
  | .charmap => true
  | .barmap  => true
  | .encode  => true
  | .clear   => true

/-- A command word spells a command: the `RSV` field is 0 and the opcode is not reserved (R80, R82, R83). -/
def commandWordWellFormed (w : Word) : Bool :=
  w.extractLsb' 4 28 == 0 && decide ((w.extractLsb' 0 4).toNat < 8)

/-- A bar-ROM word is legal: `ac, dc <= 9` and `ab, db <= 12` (R87). -/
def barWordWellFormed (w : BitVec 16) : Bool :=
  decide (Machine.barWordAc w ≤ 9) && decide (Machine.barWordAb w ≤ 12)
    && decide (Machine.barWordDc w ≤ 9) && decide (Machine.barWordDb w ≤ 12)

/-- A configuration image is legal: each of its 65 bar-ROM words is (R87, R163). Any 13-bit character is (R87). -/
def ConfigImage.wellFormed (img : ConfigImage) : Bool :=
  img.barWords.toList.all barWordWellFormed

/-- The labels a script defines, in order. -/
def scriptLabels : List Stmt → List Nat
  | [] => []
  | .label l :: rest => l :: scriptLabels rest
  | .wr _ _ :: rest => scriptLabels rest
  | .rd _ :: rest => scriptLabels rest
  | .bnz _ _ _ :: rest => scriptLabels rest

/-- The labels a script branches to, in order. -/
def scriptTargets : List Stmt → List Nat
  | [] => []
  | .bnz _ _ l :: rest => l :: scriptTargets rest
  | .wr _ _ :: rest => scriptTargets rest
  | .rd _ :: rest => scriptTargets rest
  | .label _ :: rest => scriptTargets rest

/-- A script is well formed: no label names two statements, and every branch has a label to go to (log entry 10). -/
def scriptWellFormed (p : List Stmt) : Bool :=
  decide (scriptLabels p).Nodup && (scriptTargets p).all fun l => (scriptLabels p).contains l

end Sys2Proof
end

