-- ==== Sys2Proof/Decode.lean ====
section
/-! DEFINITION. Decoding of command words, total on every 32-bit word and rejecting by name (spec/30_encoding.md R80 to
R85), and the encoder written from the same map (R81); the 40-bit listing form of bus transactions (R90). -/

namespace Sys2Proof

/-- Why a word spells no command. The block reports both as `ILLEGAL_CMD` (R202); the names are the model's
(log entry 16). -/
inductive IllegalCommand where
  /-- Bits 31:4 are not 0 (R82). -/
  | reservedBits
  /-- Bits 31:4 are 0 and the opcode is `0x8` to `0xF` (R83). -/
  | reservedOpcode
  deriving DecidableEq, Repr

/-- `OP`, bits 3:0 of a command word (R80). -/
def opField (w : Word) : BitVec 4 := w.extractLsb' 0 4

/-- `RSV`, bits 31:4 of a command word (R80). -/
def rsvField (w : Word) : BitVec 28 := w.extractLsb' 4 28

/-- The opcode map read from opcode to command; none for the reserved opcodes (R81, R83). -/
def instrOfOp (op : BitVec 4) : Option Instr :=
  match op.toNat with
  | 0 => some .nop
  | 1 => some .crc
  | 2 => some .decomp
  | 3 => some .adjust
  | 4 => some .charmap
  | 5 => some .barmap
  | 6 => some .encode
  | 7 => some .clear
  | _ => none

/-- `Decode(v)` of R84: the command a word spells, or why it spells none. -/
def decode (w : Word) : Except IllegalCommand Instr :=
  if rsvField w ≠ 0 then .error .reservedBits
  else match instrOfOp (opField w) with
    | some i => .ok i
    | none   => .error .reservedOpcode

/-- The opcode of a command (R81). -/
def Instr.op : Instr → BitVec 4
  | .nop     => 0x0
  | .crc     => 0x1
  | .decomp  => 0x2
  | .adjust  => 0x3
  | .charmap => 0x4
  | .barmap  => 0x5
  | .encode  => 0x6
  | .clear   => 0x7

/-- The command word of a command: `RSV` = 0 above its opcode (R80, R81). -/
def encode (i : Instr) : Word := i.op.setWidth 32

/-- The command this decoder reads from a row's bits, numbered as the opcode table numbers them. Every command is one
32-bit word (R85). The spec has no row of another length, and what is answered for one is a DESIGN CHOICE (log entry 17):
fewer bits than 32 are read as a 32-bit word with zeros above them, more bits than 32 spell none. -/
def decodeTableWord (nbits w : Nat) : Option Instr :=
  if nbits ≤ 32 ∧ w < 2 ^ 32 then
    match decode (BitVec.ofNat 32 w) with
    | .ok i    => some i
    | .error _ => none
  else none

/-- A bus transaction as a 40-bit word: bit 39 is 0, bit 38 the direction, bits 37:32 the word index, bits 31:0 the
write data, 0 for a read (R90). -/
def encodeTransaction : Transaction → BitVec 40
  | .read a    => a.setWidth 40 <<< 32
  | .write a v => (1#40 <<< 38) ||| (a.setWidth 40 <<< 32) ||| v.setWidth 40

/-- The transaction a 40-bit word lists; none where bit 39 is set or a read carries data (R90, log entry 15). -/
def decodeTransaction (w : BitVec 40) : Option Transaction :=
  if w.getLsbD 39 then none
  else if w.getLsbD 38 then some (.write (w.extractLsb' 32 6) (w.extractLsb' 0 32))
  else if w.extractLsb' 0 32 = 0 then some (.read (w.extractLsb' 32 6))
  else none

end Sys2Proof
end

