-- ==== Sys2Proof/Machine/State.lean ====
section
/-! DEFINITION. The state of the machine: the architectural state of the block as spec/10_state.md R20 lists it, its
configuration, and the two other agents (the host with its script and observations, and the order in which the agents
move), all plain data; the reasons a step can stop; and the state right after reset (R41). -/

namespace Sys2Proof.Machine

/-- Why the machine may stop. The block itself raises no trap (R200): every error it reports is a code in `ERR`, and
the run goes on (R211). -/
inductive Fault where
  /-- Raised by the engine's turn (`engineTurn`) when `BUSY = 1` and no command is pending. R31 says that no such state
  exists, and the table of R180 has no row for it. SAFE: the model stops where the spec describes no effect, and no
  state that a run from a coherent state reaches has it (log entry 6). -/
  | noPendingCommand
  deriving DecidableEq, Repr

/-- Why the model gives no meaning. -/
inductive Refusal where
  /-- Raised by an arm of `exec` whose command has no meaning yet; no arm raises it now. SAFE. -/
  | notModelled (mnemonic : String)
  /-- Raised by `boot` on a configuration image with a bar-ROM entry out of range: "a model refuses the configuration
  (it does not run)" (R87, R163, U5). SAFE: a refused configuration has no runs. -/
  | illegalConfiguration
  deriving DecidableEq, Repr

/-- The state of one block (log entry 20) with its configuration, its host and its schedule. The block has no memory of
bytes (log entry 14). -/
structure State where
  /-- `D`, the binary data (R23). -/
  d      : Payload
  /-- `FCS`, the frame check sequence (R24). -/
  fcs    : Fcs
  /-- `CW[0..9]`, the codewords (R25). -/
  cw     : Vector Codeword 10
  /-- `CH[0..9]`, the characters (R26). -/
  ch     : Vector Character 10
  /-- `BAR[0..64]`, the bars (R27). -/
  bar    : Vector Bar 65
  /-- `FCS_V` (R28). -/
  fcsV   : Bool
  /-- `CW_V` (R28). -/
  cwV    : Bool
  /-- `ADJ_V` (R28). -/
  adjV   : Bool
  /-- `CH_V` (R28). -/
  chV    : Bool
  /-- `BAR_V` (R28). -/
  barV   : Bool
  /-- `ERR`, the status code of the last completion or rejected write (R29). -/
  err    : StatusCode
  /-- `DROP`: a write was dropped while busy (R30). -/
  drop   : Bool
  /-- `BUSY`: a command is pending (R31). -/
  busy   : Bool
  /-- `PEND`, the pending command, hidden from the host (R31). -/
  pend   : Option Instr
  /-- `CHAR_ROM`, `BAR_ROM` and `LAT`, which no step changes (R7, R20). -/
  cfg    : Config
  /-- The host's program (R88), the environment's input to the block (log entry 1). -/
  script : List HostOp
  /-- Which action of `script` the host performs next. -/
  pos    : Nat
  /-- The values the host's reads returned, oldest first: the observation of a run (R240, log entry 11). -/
  reads  : List Word
  /-- Which agent moves next, and next after that (R12, U14); what follows the last is a DESIGN CHOICE, log entry 2. -/
  sched  : List Agent
  /-- The model's own: how many free values were drawn so far (log entry 3). -/
  draws  : Nat
  deriving DecidableEq, Repr

/-- The machine right after reset: every register at the value R41 gives it, no host script, nothing observed
(the fields from `script` on: DESIGN CHOICE, log entry 18). -/
def State.reset : State where
  d      := 0
  fcs    := 0
  cw     := Vector.replicate 10 0
  ch     := Vector.replicate 10 0
  bar    := Vector.replicate 65 0
  fcsV   := false
  cwV    := false
  adjV   := false
  chV    := false
  barV   := false
  err    := 0
  drop   := false
  busy   := false
  pend   := none
  cfg    := Config.installed
  script := []
  pos    := 0
  reads  := []
  sched  := []
  draws  := 0

end Sys2Proof.Machine
end

