-- ==== Sys2Proof/Machine/Flags.lean ====
section
/-! DEFINITION. The flags: the status codes (spec/60_exceptions.md R201), the STATUS word (spec/10_state.md R33), and the
prerequisites over the valid bits (R204). -/

namespace Sys2Proof.Machine

/-- The status codes that are ever written to `ERR` (R201). -/
inductive Status where
  | ok
  | illegalCmd
  | sequence
  | lookupRange
  | badWrite
  deriving DecidableEq, Repr

/-- The number of a status code (R201); codes 5 to 15 are reserved and never written. -/
def Status.code : Status → StatusCode
  | .ok          => 0
  | .illegalCmd  => 1
  | .sequence    => 2
  | .lookupRange => 3
  | .badWrite    => 4

/-- The STATUS word from its fields: `mid` in bits 12:4, DROP in bit 1, BUSY in bit 0, the reserved bits 0 (R33). -/
def statusWord (mid : BitVec 9) (drop busy : Bool) : Word :=
  (mid.setWidth 32 <<< 4) ||| ((BitVec.ofBool drop).setWidth 32 <<< 1) ||| (BitVec.ofBool busy).setWidth 32

/-- STATUS bits 12:4 while idle: ERR in bits 7:4 of the word, then FCS_V, CW_V, ADJ_V, CH_V, BAR_V upwards (R33). -/
def statusMid (s : State) : BitVec 9 :=
  s.err.setWidth 9 ||| ((BitVec.ofBool s.fcsV).setWidth 9 <<< 4) ||| ((BitVec.ofBool s.cwV).setWidth 9 <<< 5)
    ||| ((BitVec.ofBool s.adjV).setWidth 9 <<< 6) ||| ((BitVec.ofBool s.chV).setWidth 9 <<< 7)
    ||| ((BitVec.ofBool s.barV).setWidth 9 <<< 8)

/-- The prerequisite of a command, tested at completion (R204). -/
def prerequisite (i : Instr) (s : State) : Bool :=
  match i with
  | .nop     => true
  | .crc     => true
  | .decomp  => true
  | .adjust  => s.cwV && !s.adjV && s.fcsV
  | .charmap => s.adjV
  | .barmap  => s.chV
  | .encode  => true
  | .clear   => true

end Sys2Proof.Machine
end

