-- ==== Sys2Proof/Machine/Operands.lean ====
section
/-! DEFINITION. The operands of the block as the host and the datapath see them: the register map (spec/20_memory.md R62),
the four words of `D` (R35, R60), its byte frame (R59), the packing of the bars (R39), and the two ROMs (R64, R65). -/

namespace Sys2Proof

/-- The word index of a register (R62). -/
def Reg.index : Reg → Index
  | .id     => 0x00
  | .cmd    => 0x01
  | .status => 0x02
  | .data k => BitVec.ofNat 6 (0x04 + k.val)
  | .fcs    => 0x08
  | .cw i   => BitVec.ofNat 6 (0x10 + i.val)
  | .ch i   => BitVec.ofNat 6 (0x20 + i.val)
  | .bar j  => BitVec.ofNat 6 (0x30 + j.val)

/-- The register at a word index; none at a reserved index (R40, R62). -/
def Reg.ofIndex (a : Index) : Option Reg :=
  if a.toNat = 0x00 then some .id
  else if a.toNat = 0x01 then some .cmd
  else if a.toNat = 0x02 then some .status
  else if h : 0x04 ≤ a.toNat ∧ a.toNat < 0x04 + 4 then some (.data ⟨a.toNat - 0x04, by omega⟩)
  else if a.toNat = 0x08 then some .fcs
  else if h : 0x10 ≤ a.toNat ∧ a.toNat < 0x10 + 10 then some (.cw ⟨a.toNat - 0x10, by omega⟩)
  else if h : 0x20 ≤ a.toNat ∧ a.toNat < 0x20 + 10 then some (.ch ⟨a.toNat - 0x20, by omega⟩)
  else if h : 0x30 ≤ a.toNat ∧ a.toNat < 0x30 + 5 then some (.bar ⟨a.toNat - 0x30, by omega⟩)
  else none

/-- The access column of the register map (R62). -/
def Reg.access : Reg → Access
  | .id     => .ro
  | .cmd    => .wo
  | .status => .ro
  | .data _ => .rw
  | .fcs    => .ro
  | .cw _   => .ro
  | .ch _   => .ro
  | .bar _  => .ro

/-- The word index a register operand of a script stands for (R88). -/
def RegOperand.index : RegOperand → Index
  | .named r     => r.index
  | .bracketed a => a

end Sys2Proof

namespace Sys2Proof.Machine

/-- The constant of the ID register, the ASCII bytes "IMB1" (R32). -/
def idValue : Word := 0x494D4231

/-- What DATA0 to DATA3 read: `D[31:0]`, `D[63:32]`, `D[95:64]`, and `D[101:96]` zero-extended (R35, R52). -/
def dataWord (d : Payload) (k : Fin 4) : Word :=
  match k with
  | 0 => d.extractLsb' 0 32
  | 1 => d.extractLsb' 32 32
  | 2 => d.extractLsb' 64 32
  | 3 => (d.extractLsb' 96 6).setWidth 32

/-- `D` after a write of DATA0 to DATA3: the word's bits replaced, the others kept; bits 31:6 of a DATA3 write are
ignored (R35, R54). -/
def putDataWord (d : Payload) (k : Fin 4) (v : Word) : Payload :=
  match k with
  | 0 => (d.extractLsb' 32 70 ++ v : BitVec (70 + 32))
  | 1 => (d.extractLsb' 64 38 ++ v ++ d.extractLsb' 0 32 : BitVec (38 + 32 + 32))
  | 2 => (d.extractLsb' 96 6 ++ v ++ d.extractLsb' 0 64 : BitVec (6 + 32 + 64))
  | 3 => (v.extractLsb' 0 6 ++ d.extractLsb' 0 96 : BitVec (6 + 96))

/-- `B[n] = zext_104(D)[103 - 8n : 96 - 8n]`: byte `n` of the 13-byte big-endian frame of `D` (R59). -/
def frameByte (d : Payload) (n : Nat) : BitVec 8 := (d.setWidth 104).extractLsb' (96 - 8 * n) 8

/-- The first `m` terms of the sum of R52 for BARj: bar `16j + n` shifted left by `2n`, for the bars there are. -/
def barSum (bar : Vector Bar 65) (j : Nat) : Nat → Nat
  | 0     => 0
  | m + 1 => barSum bar j m + (if h : 16 * j + m < 65 then (bar[16 * j + m]).toNat <<< (2 * m) else 0)

/-- `BARWORD(j)`: the word BARj reads, bar `16j + m` in bits `2m+1 : 2m` (R39, R52). -/
def barWord (bar : Vector Bar 65) (j : Fin 5) : Word := BitVec.ofNat 32 (barSum bar j.val 16)

/-- `CharRom(i)` for an index the ROM has (R64). -/
def charRom (cfg : Config) (i : Nat) (h : i < 1365) : Character := cfg.charRom[i]

/-- `BarRom(k)` (R65). -/
def barRom (cfg : Config) (k : Fin 65) : BarEntry := cfg.barRom[k]

/-- `LAT(op)`, at least 1 (R7). No rule observes it, and nothing in the model reads it (R239, log entry 5). -/
def latency (cfg : Config) (i : Instr) : Nat :=
  match i with
  | .nop     => cfg.spareCycles[0] + 1
  | .crc     => cfg.spareCycles[1] + 1
  | .decomp  => cfg.spareCycles[2] + 1
  | .adjust  => cfg.spareCycles[3] + 1
  | .charmap => cfg.spareCycles[4] + 1
  | .barmap  => cfg.spareCycles[5] + 1
  | .encode  => cfg.spareCycles[6] + 1
  | .clear   => cfg.spareCycles[7] + 1

end Sys2Proof.Machine
end

