-- ==== Sys2Proof/Machine/Ops.lean ====
section
/-! DEFINITION. The shared operations: ending a command with success or with an error (the block has no trap, and this is
all that "taking an exception" is here, spec/60_exceptions.md R200, R206), host reads and writes (spec/20_memory.md R52 to
R54), issue (spec/45_control.md R185) and reset (spec/70_reset_and_hazards.md R230). -/

namespace Sys2Proof.Machine

/-- `x[ERR] <- c` (R29). -/
def State.setErr (s : State) (c : Status) : State := { s with err := c.code }

/-- `x[PEND] <- none; x[BUSY] <- 0`: the engine is free again (R180). -/
def State.finish (s : State) : State := { s with pend := none, busy := false }

/-- All five valid bits to 0 (R54). -/
def State.invalidate (s : State) : State :=
  { s with fcsV := false, cwV := false, adjV := false, chV := false, barV := false }

/-- A command is accepted: `PEND`, `BUSY` and `DROP` change, nothing else (R185). -/
def State.accept (s : State) (i : Instr) : State := { s with pend := some i, busy := true, drop := false }

/-- A write is dropped: `DROP` is set, nothing else (R53, R207). -/
def State.markDropped (s : State) : State := { s with drop := true }

/-- A command ends with `OK`; `s` holds its effects already (R180, R201). -/
def succeed (s : State) : Host.Outcome State Fault Refusal := .next (s.setErr .ok).finish

/-- `raise Error(code)`: from the state the command found, `ERR` is written and nothing else of the command; `PEND` and
`BUSY` are cleared as for any completion (R11, R180, R206). There is no handler to go to and nothing to return from
(R200, R211): the next state is an ordinary one, and the run goes on. -/
def raiseError (c : Status) (s : State) : Host.Outcome State Fault Refusal := .next (s.setErr c).finish

/-- What a host read of word index `a` returns (R52). While `BUSY = 1`, STATUS bits 12:4 and the result registers are a
`draw()`. -/
def readValue (a : Index) (s : State) : Word :=
  match Reg.ofIndex a with
  | some .id       => idValue
  | some .cmd      => 0
  | some .status   =>
    statusWord (if s.busy then (Config.draw s.draws).extractLsb' 0 9 else statusMid s) s.drop s.busy
  | some (.data k) => dataWord s.d k
  | some .fcs      => if s.busy then Config.draw s.draws else s.fcs.setWidth 32
  | some (.cw i)   => if s.busy then Config.draw s.draws else (s.cw[i]).setWidth 32
  | some (.ch i)   => if s.busy then Config.draw s.draws else (s.ch[i]).setWidth 32
  | some (.bar j)  => if s.busy then Config.draw s.draws else barWord s.bar j
  | none           => 0

/-- A host read: the value joins the observation, and the next `draw()` is a new one; the block is not touched (R52,
R57). -/
def hostRead (a : Index) (s : State) : State :=
  { s with reads := s.reads ++ [readValue a s], draws := s.draws + 1 }

/-- `DataWrite`: one word of `D`, and every result invalid (R54). -/
def dataWrite (k : Fin 4) (v : Word) (s : State) : State := { s with d := putDataWord s.d k v }.invalidate

/-- `CmdWrite`: a command is accepted, or the word is rejected with `ILLEGAL_CMD` (R185, R202). -/
def cmdWrite (v : Word) (s : State) : State :=
  match decode v with
  | .ok i    => s.accept i
  | .error _ => s.setErr .illegalCmd

/-- `MemWrite`: `BUSY` is tested first, then the index, then the word (R53, R208). -/
def memWrite (a : Index) (v : Word) (s : State) : State :=
  if s.busy then s.markDropped
  else match Reg.ofIndex a with
    | some (.data k) => dataWrite k v s
    | some .cmd      => cmdWrite v s
    | some .id       => s.setErr .badWrite
    | some .status   => s.setErr .badWrite
    | some .fcs      => s.setErr .badWrite
    | some (.cw _)   => s.setErr .badWrite
    | some (.ch _)   => s.setErr .badWrite
    | some (.bar _)  => s.setErr .badWrite
    | none           => s.setErr .badWrite

/-- The host performs a transaction (R51). -/
def transact (t : Transaction) (s : State) : State :=
  match t with
  | .read a    => hostRead a s
  | .write a v => memWrite a v s

/-- Reset: every register of the block to its reset value, a pending command aborted, the configuration kept (R230,
R231); the other agents are not the block's (log entry 12). -/
def resetBlock (s : State) : State :=
  { State.reset with
    cfg := s.cfg, script := s.script, pos := s.pos, reads := s.reads, sched := s.sched, draws := s.draws }

end Sys2Proof.Machine
end

