-- ==== Sys2Proof/Machine/Bars.lean ====
section
/-! DEFINITION. The bar-mapping ROM (spec/44_bar.md): BARMAP (R160, R161). -/

namespace Sys2Proof.Machine

/-- The character bit at a coordinate, bit 0 the least significant (R161). -/
def characterBit (ch : Vector Character 10) (xy : Coord) : Bool := (ch[xy.chr]).getLsbD xy.bit.val

/-- One bar: `2*asc + desc`, bit 1 the ascender bit and bit 0 the descender bit (R161). -/
def barOf (e : BarEntry) (ch : Vector Character 10) : Bar :=
  BitVec.ofNat 2 (2 * (characterBit ch e.asc).toNat + (characterBit ch e.desc).toNat)

/-- `barmap`: all 65 bars (R161). -/
@[irreducible] def barmap (cfg : Config) (ch : Vector Character 10) : Vector Bar 65 :=
  Vector.ofFn fun k => barOf (barRom cfg k) ch

/-- BARMAP: `SEQUENCE` unless the characters are valid (R160, R204). -/
def execBarmap (s : State) : Host.Outcome State Fault Refusal :=
  if prerequisite .barmap s then succeed { s with bar := barmap s.cfg s.ch, barV := true }
  else raiseError .sequence s

end Sys2Proof.Machine
end

