-- ==== Sys2Proof/Machine/Character.lean ====
section
/-! DEFINITION. The character-table ROM and the conditional bit-flip controller (spec/43_character.md): CHARMAP (R140,
R141). -/

namespace Sys2Proof.Machine

/-- The complement mask of a character: 13 set bits (R6). -/
def flipMask : Character := 0x1FFF

/-- Every codeword is an index of the character ROM, `0..1364`; all ten are tested before any character is formed (R140, R142). -/
abbrev codewordsInRange (cs : Vector Codeword 10) : Prop := ∀ i : Fin 10, (cs[i]).toNat < 1365

/-- Character `i`: the ROM entry of its codeword, complemented if FCS bit `i` is 1 (R141). -/
def character (cfg : Config) (cs : Vector Codeword 10) (f : Fcs) (i : Fin 10) (h : (cs[i]).toNat < 1365) : Character :=
  if f.getLsbD i.val then charRom cfg (cs[i]).toNat h ^^^ flipMask else charRom cfg (cs[i]).toNat h

/-- `charmap`: the ten characters, or none where a codeword is outside the ROM (R141, R142). -/
@[irreducible] def charmap (cfg : Config) (cs : Vector Codeword 10) (f : Fcs) : Option (Vector Character 10) :=
  if h : codewordsInRange cs then some (Vector.ofFn fun i => character cfg cs f i (h i)) else none

/-- CHARMAP: `SEQUENCE` unless the codewords are adjusted, then `LOOKUP_RANGE` if one is out of range (R140, R209). -/
def execCharmap (s : State) : Host.Outcome State Fault Refusal :=
  if prerequisite .charmap s then
    match charmap s.cfg s.cw s.fcs with
    | none    => raiseError .lookupRange s
    | some ch => succeed { s with ch := ch, chV := true }
  else raiseError .sequence s

end Sys2Proof.Machine
end

