-- ==== Sys2Proof/Machine/Codeword.lean ====
section
/-! DEFINITION. The mixed-radix decomposer and the codeword adjustments (spec/42_codeword.md): DECOMP (R120, R121) and
ADJUST (R124, R125). -/

namespace Sys2Proof.Machine

/-- The divisor of codeword 9 on the 13-bit divisor operand (R6, R8). -/
def radix9 : BitVec 13 := 636

/-- The divisor of codewords 8 down to 1 on the 13-bit divisor operand (R6, R8). -/
def radix : BitVec 13 := 1365

/-- The addend of codeword 0 when FCS bit 10 is 1 (R6). -/
def fcsOff : Codeword := 659

/-- `decomp`: repeated floor division, least significant codeword first, codeword 0 the final quotient (R121). Each value
fits 13 bits (R122). -/
@[irreducible] def decomp (d : Payload) : Vector Codeword 10 :=
  let q8 := d.toNat / radix9.toNat
  let q7 := q8 / radix.toNat
  let q6 := q7 / radix.toNat
  let q5 := q6 / radix.toNat
  let q4 := q5 / radix.toNat
  let q3 := q4 / radix.toNat
  let q2 := q3 / radix.toNat
  let q1 := q2 / radix.toNat
  let q0 := q1 / radix.toNat
  #v[BitVec.ofNat 13 q0, BitVec.ofNat 13 (q1 % radix.toNat), BitVec.ofNat 13 (q2 % radix.toNat),
     BitVec.ofNat 13 (q3 % radix.toNat), BitVec.ofNat 13 (q4 % radix.toNat), BitVec.ofNat 13 (q5 % radix.toNat),
     BitVec.ofNat 13 (q6 % radix.toNat), BitVec.ofNat 13 (q7 % radix.toNat), BitVec.ofNat 13 (q8 % radix.toNat),
     BitVec.ofNat 13 (d.toNat % radix9.toNat)]

/-- The orientation bit: codeword 9 doubled (R125). -/
def orient (cs : Vector Codeword 10) : Vector Codeword 10 := cs.set 9 (cs[9] * 2)

/-- The FCS high bit: 659 added to codeword 0 if FCS bit 10 is 1 (R125). -/
def addHighBit (cs : Vector Codeword 10) (f : Fcs) : Vector Codeword 10 :=
  if f.getLsbD 10 then cs.set 0 (cs[0] + fcsOff) else cs

/-- `adjust`: the two adjustments, in the source's order (R125). Every value fits for codewords of `decomp` (R126); from
others, which no run leaves to be adjusted, the 13-bit arithmetic wraps (DEDUCED, log entry 8). -/
def adjust (cs : Vector Codeword 10) (f : Fcs) : Vector Codeword 10 := addHighBit (orient cs) f

/-- DECOMP (R120). -/
def execDecomp (s : State) : Host.Outcome State Fault Refusal :=
  succeed { s with cw := decomp s.d, cwV := true, adjV := false, chV := false, barV := false }

/-- ADJUST: `SEQUENCE` unless the raw codewords and the FCS are valid and not yet adjusted (R124, R204). -/
def execAdjust (s : State) : Host.Outcome State Fault Refusal :=
  if prerequisite .adjust s then succeed { s with cw := adjust s.cw s.fcs, adjV := true }
  else raiseError .sequence s

end Sys2Proof.Machine
end

