-- ==== Sys2Proof/Machine/Crc.lean ====
section
/-! DEFINITION. The CRC-11 polynomial evaluator (spec/41_crc11.md): the bit-serial function of R101, its two other forms
of R102 and R104, and the CRC command (R100). -/

namespace Sys2Proof.Machine

/-- The generator polynomial as given, 12 bits (R6). -/
def poly : BitVec 12 := 0xF35

/-- The initial value of the register (R6). -/
def crcInit : Fcs := 0x7FF

/-- The shift of R101 with the feedback bit given: shift left by 1, XOR with the polynomial if the bit is 1, and mask to
11 bits. -/
def crcShift (r : Fcs) (fb : Bool) : Fcs :=
  let t : BitVec 12 := r.setWidth 12 <<< 1
  (if fb then t ^^^ poly else t).setWidth 11

/-- One step of R101 on a data bit: bit 10 of (register XOR data) before the shift is the feedback. -/
def crcStep (r : Fcs) (bit : Bool) : Fcs := crcShift r (r.getLsbD 10 ^^ bit)

/-- The steps for bits `n - 1` down to 0 of `d` (R101). -/
def crcLoop (d : Payload) : Nat → Fcs → Fcs
  | 0, r     => r
  | n + 1, r => crcLoop d n (crcStep r (d.getLsbD n))

/-- `crc11`: 102 steps, the most significant bit of `D` first (R101). -/
@[irreducible] def crc11 (d : Payload) : Fcs := crcLoop d 102 crcInit

/-- `n` steps of the byte form: the test reads bit 10 of (register XOR data), and `data` moves left by 1 (R102). -/
def crcByteSteps : Nat → Fcs → BitVec 16 → Fcs
  | 0, r, _        => r
  | n + 1, r, data => crcByteSteps n (crcShift r ((r.setWidth 16 ^^^ data).getLsbD 10)) (data <<< 1)

/-- Bytes 1 to `n` of the frame, eight bits each (R102). -/
def crcBytes (d : Payload) : Nat → Fcs → Fcs
  | 0, r     => r
  | n + 1, r => crcByteSteps 8 (crcBytes d n r) ((frameByte d (n + 1)).setWidth 16 <<< 3)

/-- The byte-frame form of R102: the low six bits of byte 0, then all bits of bytes 1 to 12. -/
def crc11Frame (d : Payload) : Fcs :=
  crcBytes d 12 (crcByteSteps 6 crcInit ((frameByte d 0).setWidth 16 <<< 5))

/-- Reduction modulo the generator as polynomials over GF(2): for `k` from `n - 1` down to 0, a bit at `11 + k` is
cleared by adding the generator times `x^k` (R103, R104). -/
def polyMod : Nat → Nat → Nat
  | 0, v     => v
  | n + 1, v => polyMod n (if v.testBit (11 + n) then v ^^^ (poly.toNat <<< n) else v)

/-- CRC (R100). -/
def execCrc (s : State) : Host.Outcome State Fault Refusal := succeed { s with fcs := crc11 s.d, fcsV := true }

end Sys2Proof.Machine
end

