-- ==== Sys2Proof/Machine/Control.lean ====
section
/-! DEFINITION. The commands that are not a single pipeline stage (spec/45_control.md): NOP (R181), ENCODE (R182), CLEAR
(R183). -/

namespace Sys2Proof.Machine

/-- NOP: nothing but the report of success (R181). -/
def execNop (s : State) : Host.Outcome State Fault Refusal := succeed s

/-- What ENCODE leaves in the result registers: FCS `f`, adjusted codewords `cs`, characters `ch`, their bars, and all
five valid bits 1 (R182). -/
def State.withResults (s : State) (f : Fcs) (cs : Vector Codeword 10) (ch : Vector Character 10) : State :=
  { s with
    fcs := f, cw := cs, ch := ch, bar := barmap s.cfg ch
    fcsV := true, cwV := true, adjV := true, chV := true, barV := true }

/-- The second half of ENCODE, from the FCS and the adjusted codewords: `LOOKUP_RANGE` and nothing else if a codeword is
out of range (R182). -/
def encodeFrom (f : Fcs) (cs : Vector Codeword 10) (s : State) : Host.Outcome State Fault Refusal :=
  match charmap s.cfg cs f with
  | none    => raiseError .lookupRange s
  | some ch => succeed (s.withResults f cs ch)

/-- ENCODE: the whole pipeline from `D`, in the fixed stage order, all or nothing (R182, R184). -/
def execEncode (s : State) : Host.Outcome State Fault Refusal :=
  encodeFrom (crc11 s.d) (adjust (decomp s.d) (crc11 s.d)) s

/-- CLEAR: every result and every valid bit to 0, `D` kept (R183). -/
def execClear (s : State) : Host.Outcome State Fault Refusal :=
  succeed { s with
    fcs := 0, cw := Vector.replicate 10 0, ch := Vector.replicate 10 0, bar := Vector.replicate 65 0
    fcsV := false, cwV := false, adjV := false, chV := false, barV := false }

end Sys2Proof.Machine
end

