-- ==== Sys2Proof/Machine/Dispatch.lean ====
section
/-! DEFINITION. The completion of a command (spec/45_control.md R180): one arm per command. Its acceptance is a host step
(R185, log entry 19). -/

namespace Sys2Proof.Machine

def exec (i : Instr) (s : State) : Host.Outcome State Fault Refusal :=
  match i with
  | .nop => Sys2Proof.Machine.execNop s
  | .crc => Sys2Proof.Machine.execCrc s
  | .decomp => Sys2Proof.Machine.execDecomp s
  | .adjust => Sys2Proof.Machine.execAdjust s
  | .charmap => Sys2Proof.Machine.execCharmap s
  | .barmap => Sys2Proof.Machine.execBarmap s
  | .encode => Sys2Proof.Machine.execEncode s
  | .clear => Sys2Proof.Machine.execClear s

end Sys2Proof.Machine
end

