-- ==== Sys2Proof/Machine/Agents.lean ====
section
/-! DEFINITION. The three agents (spec/00_scope.md R12): the host's turn, the engine's completion step (spec/45_control.md
R180), and which agent moves next (spec/20_memory.md R66, U14). -/

namespace Sys2Proof.Machine

/-- The host performs its next action: one bus transaction. A branch is the host's own control flow after a read (R88);
a host that has executed its last statement does nothing (R240; DESIGN CHOICE, log entry 2). -/
def hostTurn (s : State) : State :=
  match s.script[s.pos]? with
  | none => s
  | some (.wr a v) => transact (.write a v) { s with pos := s.pos + 1 }
  | some (.rd a) => transact (.read a) { s with pos := s.pos + 1 }
  | some (.bnz a mask target) =>
    transact (.read a) { s with pos := if readValue a s &&& mask ≠ 0 then target else s.pos + 1 }

/-- The engine's turn: its completion step performs the pending command, and is enabled exactly when `BUSY = 1` (R180);
with `BUSY = 0` the turn passes and nothing changes (R217, log entry 13). -/
def engineTurn (s : State) : Host.Outcome State Fault Refusal :=
  if s.busy then
    match s.pend with
    | some i => exec i s
    | none   => .fault .noPendingCommand
  else .next s

/-- Who moves next: the schedule says, and where it has run out a pending command is completed before the host goes on,
which makes the completion step weakly fair (R12, R239, U14, log entry 2). -/
def nextAgent (s : State) : Agent :=
  match s.sched with
  | a :: _ => a
  | []     => if s.busy then .engine else .host

/-- The schedule after one turn. -/
def State.spendTurn (s : State) : State := { s with sched := s.sched.tail }

/-- The bus transaction a host action performs; a branch is a read to the block (R88). -/
def transactionOf : HostOp → Transaction
  | .wr a v    => .write a v
  | .rd a      => .read a
  | .bnz a _ _ => .read a

end Sys2Proof.Machine
end

