-- ==== Sys2Proof/Machine/Step.lean ====
section
/-! DEFINITION. One step of the machine: the agent whose turn it is moves (spec/00_scope.md R12). -/

namespace Sys2Proof.Machine

/-- One step: a host transaction, the completion of the pending command, or reset. -/
def step (s : State) : Host.Outcome State Fault Refusal :=
  match nextAgent s with
  | .host   => .next (hostTurn s.spendTurn)
  | .engine => engineTurn s.spendTurn
  | .reset  => .next (resetBlock s.spendTurn)

/-- Up to `n` steps, stopping at the first fault or refusal. -/
def steps : Nat → State → Host.Outcome State Fault Refusal
  | 0, s     => .next s
  | n + 1, s =>
    match step s with
    | .next t    => steps n t
    | .fault r   => .fault r
    | .refused r => .refused r

/-- `s` with the command of a table row where the engine takes its next command: accepted, so in `PEND` with `BUSY = 1`
(R185), and the engine's turn next. Where `decodeTableWord` answers none, the low 32 bits of the word are the next write of the
host to the CMD register of the idle block: a 32-bit word that spells no command is rejected there (R202). Of a row or a
word of more than 32 bits, which the spec does not have (R85), the bits above bit 31 are left out, so its low 32 bits are
accepted if they spell a command (DESIGN CHOICE, log entry 7). -/
def State.withFetchWord (s : State) (nbits w : Nat) : State :=
  match decodeTableWord nbits w with
  | some i => { s.accept i with sched := .engine :: s.sched }
  | none   =>
    { s.finish with script := [.wr Reg.cmd.index (BitVec.ofNat 32 w)], pos := 0, sched := .host :: s.sched }

end Sys2Proof.Machine
end

