-- ==== Sys2Proof/Machine/Boot.lean ====
section
/-! DEFINITION. Configuring a block before it leaves reset (spec/70_reset_and_hazards.md R233): an image of the two ROMs is
checked and becomes the configuration, or is refused (spec/30_encoding.md R87, spec/44_bar.md R163). -/

namespace Sys2Proof.Machine

/-- The configuration an image stands for; none where a bar-ROM word is out of range (R87, U5; log entry 9). -/
@[irreducible] def loadConfig (img : ConfigImage) : Option Config :=
  if h : ∀ k : Fin 65, (barEntryOfWord img.barWords[k]).isSome = true then
    some
      { charRom     := img.charWords
        barRom      := Vector.ofFn fun k => (barEntryOfWord img.barWords[k]).get (h k)
        spareCycles := img.spareCycles }
  else none

/-- The block right after reset with a configuration of the caller's; an illegal one is refused and does not run (R87,
R163, R233). -/
def boot (img : ConfigImage) : Host.Outcome State Fault Refusal :=
  match loadConfig img with
  | some cfg => .next { State.reset with cfg := cfg }
  | none     => .refused .illegalConfiguration

end Sys2Proof.Machine
end

