-- ==== Sys2Proof/Machine/Script.lean ====
section
/-! DEFINITION. The host script notation (spec/30_encoding.md R88, R89): labels turned into positions, and the expansions
of the pseudo-statements. -/

namespace Sys2Proof.Machine

/-- The position of the action that label `l` names: how many transactions stand before the label (R88). -/
def labelPosition (l : Nat) : List Stmt → Option Nat
  | [] => none
  | .label m :: rest => if m = l then some 0 else labelPosition l rest
  | .wr _ _ :: rest => (labelPosition l rest).map (· + 1)
  | .rd _ :: rest => (labelPosition l rest).map (· + 1)
  | .bnz _ _ _ :: rest => (labelPosition l rest).map (· + 1)

/-- The host actions of the statements of `p`, with the labels of the whole script `whole`. -/
def assembleIn (whole : List Stmt) : List Stmt → Option (List HostOp)
  | [] => some []
  | .label _ :: rest => assembleIn whole rest
  | .wr r v :: rest => (assembleIn whole rest).map (.wr r.index v :: ·)
  | .rd r :: rest => (assembleIn whole rest).map (.rd r.index :: ·)
  | .bnz r mask l :: rest =>
    match labelPosition l whole with
    | some t => (assembleIn whole rest).map (.bnz r.index mask t :: ·)
    | none   => none

/-- The host actions of a script; none where a label is defined twice or a branch has no label (log entry 10). -/
def assemble (p : List Stmt) : Option (List HostOp) := if scriptWellFormed p then assembleIn p p else none

/-- `CMD op`: write the command word of `op` to CMD (R89). -/
def pseudoCmd (i : Instr) : List Stmt := [.wr (.named .cmd) (encode i)]

/-- `WAIT`: poll STATUS until `BUSY = 0`, with label `l` for the loop (R89). R89 writes the one label `w` in every expansion
and does not say how a repeated `w` resolves. Here each use takes a label of its own, and a script that uses one label twice
is not assembled (DESIGN CHOICE, log entry 10). -/
def pseudoWait (l : Nat) : List Stmt := [.label l, .bnz (.named .status) 0x1 l]

/-- `RUN op`: `CMD op`, then `WAIT` (R89). -/
def pseudoRun (i : Instr) (l : Nat) : List Stmt := pseudoCmd i ++ pseudoWait l

/-- `LDD imm102`: the four words of the value to DATA0 to DATA3 (R89). -/
def pseudoLdd (v : Payload) : List Stmt :=
  [.wr (.named (.data 0)) (dataWord v 0), .wr (.named (.data 1)) (dataWord v 1),
   .wr (.named (.data 2)) (dataWord v 2), .wr (.named (.data 3)) (dataWord v 3)]

end Sys2Proof.Machine
end

