-- ==== Sys2Proof/Safety.lean ====
section
/-! DEFINITION. What the claims are stated in: the invariants of the block (spec/10_state.md R31, R42, spec/60_exceptions.md
R201), what a step may read and write, and what holds along a run. -/

namespace Sys2Proof.Machine

/-- `BUSY = 1` exactly when `PEND != none` (R31). -/
def Coherent (s : State) : Prop := s.busy = s.pend.isSome

/-- The valid bits tell the truth about the result registers (R42). The spec asks for it whenever `BUSY = 0`; no step
changes any of these registers while `BUSY = 1` before the completion (R71), so it is stated of every state. -/
structure ResultsValid (s : State) : Prop where
  fcs : s.fcsV = true → s.fcs = crc11 s.d
  raw : s.cwV = true → s.adjV = false → s.cw = decomp s.d
  adj : s.adjV = true → s.cwV = true ∧ s.fcsV = true ∧ s.cw = adjust (decomp s.d) s.fcs
  ch  : s.chV = true → s.adjV = true ∧ charmap s.cfg s.cw s.fcs = some s.ch
  bar : s.barV = true → s.chV = true ∧ s.bar = barmap s.cfg s.ch

/-- `ERR` holds no reserved code (R201, U11) and never `LOOKUP_RANGE` (R144, R205). -/
def ErrReachable (s : State) : Prop :=
  s.err = Status.ok.code ∨ s.err = Status.illegalCmd.code ∨ s.err = Status.sequence.code ∨ s.err = Status.badWrite.code

/-- The invariant of the machine. -/
structure Inv (s : State) : Prop where
  coherent : Coherent s
  results  : ResultsValid s
  err      : ErrReachable s

/-- The end of a run: the host has executed its last statement and `BUSY = 0` (R240). -/
def Ended (s : State) : Prop := s.script.length ≤ s.pos ∧ s.busy = false

/-- The host's next action, if the host has one. -/
def nextOp (s : State) : Option HostOp := s.script[s.pos]?

/-- The next step is a write of `v` to word index `a` that the block does not drop. -/
def WritesNext (s : State) (a : Index) (v : Word) : Prop :=
  nextAgent s = .host ∧ nextOp s = some (.wr a v) ∧ s.busy = false

/-- The next step is the completion of command `i`. -/
def CompletesNext (s : State) (i : Instr) : Prop :=
  nextAgent s = .engine ∧ s.busy = true ∧ s.pend = some i

/-- The next step is an accepted write of DATA0 to DATA3. -/
def DataWriteNext (s : State) : Prop := ∃ k v, WritesNext s (Reg.data k).index v

/-- The next step is the acceptance of a command. -/
def AcceptsNext (s : State) : Prop := ∃ i, WritesNext s Reg.cmd.index (encode i)

/-- The next step is a write that the idle block rejects: of CMD with a word of no command (R202), or of an index that is
neither CMD nor DATA0 to DATA3 (R203). -/
def RejectsNext (s : State) : Prop :=
  ∃ a v, WritesNext s a v ∧ (∀ k, a ≠ (Reg.data k).index) ∧ (a = Reg.cmd.index → ∀ i, v ≠ encode i)

/-- The registers a command works on and leaves its results in are the same in both states. -/
structure SameResults (s t : State) : Prop where
  d    : t.d = s.d
  fcs  : t.fcs = s.fcs
  cw   : t.cw = s.cw
  ch   : t.ch = s.ch
  bar  : t.bar = s.bar
  fcsV : t.fcsV = s.fcsV
  cwV  : t.cwV = s.cwV
  adjV : t.adjV = s.adjV
  chV  : t.chV = s.chV
  barV : t.barV = s.barV
  cfg  : t.cfg = s.cfg

/-- Everything but the block's own registers is the same in both states: its configuration, the host, the schedule, the
free values. -/
structure SameOutside (s t : State) : Prop where
  cfg    : t.cfg = s.cfg
  script : t.script = s.script
  pos    : t.pos = s.pos
  reads  : t.reads = s.reads
  sched  : t.sched = s.sched
  draws  : t.draws = s.draws

/-- The block is free again and reports `c`: how every completion ends (R180). -/
structure EndsWith (s t : State) (c : Status) : Prop where
  err  : t.err = c.code
  busy : t.busy = false
  pend : t.pend = none
  drop : t.drop = s.drop

/-- A state with another latency (R7). -/
def State.withLatency (s : State) (l : Vector Nat 8) : State := { s with cfg := { s.cfg with spareCycles := l } }

/-- A function applied to the next state, where there is one. -/
def mapNext (f : State → State) : Host.Outcome State Fault Refusal → Host.Outcome State Fault Refusal
  | .next s    => .next (f s)
  | .fault r   => .fault r
  | .refused r => .refused r

/-- One outcome after another: the second is run where the first gives a next state. -/
def andThen (o : Host.Outcome State Fault Refusal) (k : State → Host.Outcome State Fault Refusal) :
    Host.Outcome State Fault Refusal :=
  match o with
  | .next s    => k s
  | .fault r   => .fault r
  | .refused r => .refused r

/-- The commands of a list performed one after the other. -/
def execAll : List Instr → State → Host.Outcome State Fault Refusal
  | [], s     => .next s
  | i :: l, s => andThen (exec i s) (execAll l)

/-- `S[j] = crc11(2^j) XOR 0x6E0`, the difference that data bit `j` makes to the FCS (R104, R106). -/
def syndrome (j : Nat) : Fcs := crc11 (BitVec.twoPow 102 j) ^^^ 0x6E0

/-- The inverse of `decomp`: mixed-radix recombination (R123). -/
def recombine (cs : Vector Codeword 10) : Nat :=
  ((((((((cs[0].toNat * 1365 + cs[1].toNat) * 1365 + cs[2].toNat) * 1365 + cs[3].toNat) * 1365 + cs[4].toNat) * 1365
    + cs[5].toNat) * 1365 + cs[6].toNat) * 1365 + cs[7].toNat) * 1365 + cs[8].toNat) * 636 + cs[9].toNat

/-- The inverse of `adjust`, given the FCS (R127). -/
def unadjust (a : Vector Codeword 10) (f : Fcs) : Vector Codeword 10 :=
  (a.set 9 (BitVec.ofNat 13 (a[9].toNat / 2))).set 0
    (BitVec.ofNat 13 (a[0].toNat - 659 * (f.getLsbD 10).toNat))

/-- How many bits of a character are 1 (R10, R145). -/
def popcount (v : Character) : Nat := ((List.range 13).filter fun i => v.getLsbD i).length

/-- All 130 coordinates of the bar ROM, 65 ascender and 65 descender sources, are pairwise distinct (R164). -/
def CoordsDistinct (cfg : Config) : Prop :=
  (cfg.barRom.toList.flatMap fun e => [e.asc, e.desc]).Nodup

end Sys2Proof.Machine
end

