-- ==== Sys2Proof/Certificates/Slice0/Obligations.lean ====
section
/-! DEFINITION. The statements about the block, from the numbered rules of spec/. OBLIGATIONS.json lists them. A statement
whose conclusion is `exec i s = .next { s with … }` gives the whole next state: every field not named is unchanged. -/

open Sys2Proof Sys2Proof.Machine

/-! ### Encoding -/

/-- R81, R84: the opcode map, word by word; a reserved opcode or a reserved bit spells no command. -/
def Obligations.CommandWordsDecode : Prop :=
  decode 0x00000000 = .ok .nop ∧ decode 0x00000001 = .ok .crc ∧ decode 0x00000002 = .ok .decomp ∧
  decode 0x00000003 = .ok .adjust ∧ decode 0x00000004 = .ok .charmap ∧ decode 0x00000005 = .ok .barmap ∧
  decode 0x00000006 = .ok .encode ∧ decode 0x00000007 = .ok .clear ∧
  (∀ op : BitVec 4, 8 ≤ op.toNat → ∃ e, decode (op.setWidth 32) = .error e) ∧
  ∀ w : Word, w.extractLsb' 4 28 ≠ 0 → ∃ e, decode w = .error e

/-- R84, R85: decoding and encoding are inverse to each other: a word spells a command exactly when it is that command's word,
which is when it is one of the eight values 0 to 7. -/
def Obligations.DecodeInvertsEncode : Prop :=
  (∀ i, i.wellFormed = true → decode (encode i) = .ok i) ∧
  (∀ w i, decode w = .ok i → w = encode i) ∧
  (∀ w : Word, (∃ i, decode w = .ok i) ↔ w.toNat < 8)

/-- R90: the 40-bit listing form of every transaction, field by field, and that it is read back. That a word with bit 39
set, or of a read with data, lists no transaction is the model's choice (log entry 15); the second clause rests on it. -/
def Obligations.TransactionWordsReadBack : Prop :=
  (∀ t, decodeTransaction (encodeTransaction t) = some t) ∧
  (∀ w t, decodeTransaction w = some t → w = encodeTransaction t) ∧
  (∀ a v, (encodeTransaction (.write a v)).getLsbD 39 = false ∧ (encodeTransaction (.write a v)).getLsbD 38 = true ∧
    (encodeTransaction (.write a v)).extractLsb' 32 6 = a ∧ (encodeTransaction (.write a v)).extractLsb' 0 32 = v) ∧
  (∀ a, (encodeTransaction (.read a)).getLsbD 39 = false ∧ (encodeTransaction (.read a)).getLsbD 38 = false ∧
    (encodeTransaction (.read a)).extractLsb' 32 6 = a ∧ (encodeTransaction (.read a)).extractLsb' 0 32 = 0) ∧
  encodeTransaction (.write 0x01 0x00000006) = 0x4100000006 ∧ encodeTransaction (.read 0x02) = 0x0200000000

/-- R87: a bar-ROM word and the entry it stands for determine each other, and a word is legal exactly when its character
indices are at most 9 and its bit indices at most 12. -/
def Obligations.BarWordsReadBack : Prop :=
  (∀ e, barEntryOfWord (barWordOfEntry e) = some e) ∧
  (∀ w e, barEntryOfWord w = some e → w = barWordOfEntry e ∧
    e.asc.chr.val = (w.extractLsb' 12 4).toNat ∧ e.asc.bit.val = (w.extractLsb' 8 4).toNat ∧
    e.desc.chr.val = (w.extractLsb' 4 4).toNat ∧ e.desc.bit.val = (w.extractLsb' 0 4).toNat) ∧
  (∀ w, barEntryOfWord w = none ↔ ¬ ((w.extractLsb' 12 4).toNat ≤ 9 ∧ (w.extractLsb' 8 4).toNat ≤ 12 ∧
    (w.extractLsb' 4 4).toNat ≤ 9 ∧ (w.extractLsb' 0 4).toNat ≤ 12))

/-- R163, R87, U5: a configuration with a bar-ROM word out of range is refused, it does not run; any other configuration
gives the reset state with the two ROMs and the latency as the image has them. That the check is made by `boot` is the
model's (log entry 9). -/
def Obligations.IllegalConfigurationRefused : Prop :=
  (∀ img : ConfigImage, (∃ k : Fin 65, barWordWellFormed img.barWords[k] = false) →
    boot img = .refused .illegalConfiguration) ∧
  (∀ img : ConfigImage, (∀ k : Fin 65, barWordWellFormed img.barWords[k] = true) →
    ∃ cfg : Config, boot img = .next { State.reset with cfg := cfg } ∧ cfg.charRom = img.charWords ∧
      cfg.spareCycles = img.spareCycles ∧ ∀ k : Fin 65, img.barWords[k] = barWordOfEntry cfg.barRom[k])

/-! ### The host bus -/

/-- R32: ID reads a constant, and a write of it is rejected. -/
def Obligations.IdRegisterIsConstant : Prop :=
  ∀ s : State, readValue 0x00 s = 0x494D4231 ∧
    ∀ v, s.busy = false → memWrite 0x00 v s = { s with err := 4 }

/-- R40: reserved word indices read 0 and reject a write. -/
def Obligations.ReservedIndicesReadZeroRejectWrites : Prop :=
  ∀ (s : State) (a : Index),
    (a.toNat = 0x03 ∨ (0x09 ≤ a.toNat ∧ a.toNat ≤ 0x0F) ∨ (0x1A ≤ a.toNat ∧ a.toNat ≤ 0x1F) ∨
      (0x2A ≤ a.toNat ∧ a.toNat ≤ 0x2F) ∨ 0x35 ≤ a.toNat) →
    readValue a s = 0 ∧ ∀ v, s.busy = false → memWrite a v s = { s with err := 4 }

/-- R33: the fields of STATUS, idle and busy, and after reset. While busy R33 leaves bits 12:4 unspecified; that they are
the low nine bits of the free value `Config.draw`, whatever the block holds, is the model's choice (log entry 3). -/
def Obligations.StatusRegisterFields : Prop :=
  readValue 0x02 State.reset = 0 ∧
  ∀ s : State,
    (readValue 0x02 s).getLsbD 0 = s.busy ∧ (readValue 0x02 s).getLsbD 1 = s.drop ∧
    (readValue 0x02 s).extractLsb' 2 2 = 0 ∧ (readValue 0x02 s).extractLsb' 13 19 = 0 ∧
    (s.busy = false → (readValue 0x02 s).extractLsb' 4 4 = s.err ∧ (readValue 0x02 s).getLsbD 8 = s.fcsV ∧
      (readValue 0x02 s).getLsbD 9 = s.cwV ∧ (readValue 0x02 s).getLsbD 10 = s.adjV ∧
      (readValue 0x02 s).getLsbD 11 = s.chV ∧ (readValue 0x02 s).getLsbD 12 = s.barV) ∧
    (s.busy = true → (readValue 0x02 s).extractLsb' 4 9 = (Config.draw s.draws).extractLsb' 0 9) ∧
    ∀ v, s.busy = false → memWrite 0x02 v s = { s with err := 4 }

/-- R36, R37, R38: FCS, CW0 to CW9 and CH0 to CH9 read their register zero-extended while idle, and reject a write. While
busy the rules leave the value unspecified; that it is the free value `Config.draw` is the model's choice (log entry 3). -/
def Obligations.ResultRegistersReadBack : Prop :=
  ∀ s : State,
    (s.busy = false →
      (readValue 0x08 s).toNat = s.fcs.toNat ∧
      (∀ i : Fin 10, (readValue (BitVec.ofNat 6 (0x10 + i.val)) s).toNat = (s.cw[i]).toNat) ∧
      (∀ i : Fin 10, (readValue (BitVec.ofNat 6 (0x20 + i.val)) s).toNat = (s.ch[i]).toNat) ∧
      ∀ (a : Index) (v : Word), a = 0x08 ∨ (0x10 ≤ a.toNat ∧ a.toNat ≤ 0x19) ∨ (0x20 ≤ a.toNat ∧ a.toNat ≤ 0x29) →
        memWrite a v s = { s with err := 4 }) ∧
    (s.busy = true →
      ∀ a : Index, a = 0x08 ∨ (0x10 ≤ a.toNat ∧ a.toNat ≤ 0x19) ∨ (0x20 ≤ a.toNat ∧ a.toNat ≤ 0x29) →
        readValue a s = Config.draw s.draws)

/-- R39: bar `16j + m` stands in bits `2m+1 : 2m` of BARj, BAR4 holds bar 64 alone; a write is rejected.
While busy R39 leaves the value unspecified; that it is the free value `Config.draw` is the model's choice (log entry 3). -/
def Obligations.BarRegistersPackBars : Prop :=
  ∀ s : State,
    (s.busy = false →
      (∀ k : Fin 65, (readValue (BitVec.ofNat 6 (0x30 + k.val / 16)) s).extractLsb' (2 * (k.val % 16)) 2 = s.bar[k]) ∧
      (readValue 0x34 s).extractLsb' 2 30 = 0 ∧
      ∀ (j : Fin 5) (v : Word), memWrite (BitVec.ofNat 6 (0x30 + j.val)) v s = { s with err := 4 }) ∧
    (s.busy = true → ∀ j : Fin 5, readValue (BitVec.ofNat 6 (0x30 + j.val)) s = Config.draw s.draws)

/-- R35: DATA0 to DATA3 read `D` at every time, bit `i` of `D` in word `i div 32`; DATA3 bits 31:6 read 0. -/
def Obligations.DataRegistersReadD : Prop :=
  ∀ s : State,
    (∀ n : Fin 102, (readValue (BitVec.ofNat 6 (0x04 + n.val / 32)) s).getLsbD (n.val % 32) = s.d.getLsbD n.val) ∧
    (readValue 0x07 s).extractLsb' 6 26 = 0

/-- R54: an accepted DATA write replaces the bits of its word of `D` and no other, ignores bits 31:6 of DATA3, clears the
five valid bits, and changes nothing else. -/
def Obligations.DataWriteReplacesWordAndInvalidates : Prop :=
  ∀ (s : State) (k : Fin 4) (v : Word), s.busy = false →
    ∃ d : Payload,
      memWrite (BitVec.ofNat 6 (0x04 + k.val)) v s =
        { s with d := d, fcsV := false, cwV := false, adjV := false, chV := false, barV := false } ∧
      ∀ n, n < 102 → d.getLsbD n = if n / 32 = k.val then v.getLsbD (n % 32) else s.d.getLsbD n

/-- R86, R89: the four DATA words assemble `D` as `DATA3[5:0] ++ DATA2 ++ DATA1 ++ DATA0`, so `LDD v` leaves `D = v`. -/
def Obligations.FourDataWritesAssembleD : Prop :=
  ∀ (s : State), s.busy = false →
    (∀ w0 w1 w2 w3 : Word,
      (memWrite 0x07 w3 (memWrite 0x06 w2 (memWrite 0x05 w1 (memWrite 0x04 w0 s)))).d.toNat =
        (w3.toNat % 64) * 2 ^ 96 + w2.toNat * 2 ^ 64 + w1.toNat * 2 ^ 32 + w0.toNat) ∧
    ∀ v : Payload,
      (memWrite 0x07 (dataWord v 3) (memWrite 0x06 (dataWord v 2)
        (memWrite 0x05 (dataWord v 1) (memWrite 0x04 (dataWord v 0) s)))).d = v

/-- R203: with `BUSY = 0` a write of any index but CMD and DATA0 to DATA3 sets `ERR` to `BAD_WRITE` and changes nothing
else. -/
def Obligations.BadWriteChangesOnlyErr : Prop :=
  ∀ (s : State) (a : Index) (v : Word), s.busy = false → a.toNat ≠ 1 → ¬ (4 ≤ a.toNat ∧ a.toNat ≤ 7) →
    memWrite a v s = { s with err := 4 }

/-- R202, R82, R83: with `BUSY = 0` a command word with bits 31:4 not 0, or with an opcode of 8 to 15, sets `ERR` to
`ILLEGAL_CMD` and changes nothing else. -/
def Obligations.IllegalCommandChangesOnlyErr : Prop :=
  ∀ (s : State) (v : Word), s.busy = false → v.extractLsb' 4 28 ≠ 0 ∨ 8 ≤ (v.extractLsb' 0 4).toNat →
    memWrite 0x01 v s = { s with err := 1 }

/-- R34, R185: CMD reads 0 in every state; with `BUSY = 0` a write of the word of a command is accepted, which changes
`PEND`, `BUSY` and `DROP` only; any other word sets `ERR` to `ILLEGAL_CMD` only. -/
def Obligations.CommandWriteAcceptsOrRejects : Prop :=
  (∀ s : State, readValue 0x01 s = 0) ∧
  ∀ (s : State), s.busy = false →
    (∀ i, memWrite 0x01 (encode i) s = { s with pend := some i, busy := true, drop := false }) ∧
    (∀ v, (∀ i, v ≠ encode i) → memWrite 0x01 v s = { s with err := 1 })

/-- R208: at a host write exactly one outcome applies, tested in the order of the rule. -/
def Obligations.WriteOutcomesInPriorityOrder : Prop :=
  ∀ (s : State) (a : Index) (v : Word),
    memWrite a v s =
      if s.busy = true then { s with drop := true }
      else if a.toNat ≠ 1 ∧ ¬ (4 ≤ a.toNat ∧ a.toNat ≤ 7) then { s with err := 4 }
      else if a.toNat ≠ 1 then
        { s with
          d := putDataWord s.d (Fin.ofNat 4 (a.toNat - 4)) v
          fcsV := false, cwV := false, adjV := false, chV := false, barV := false }
      else match decode v with
        | .error _ => { s with err := 1 }
        | .ok i    => { s with pend := some i, busy := true, drop := false }

/-- R207: a write while `BUSY = 1` sets `DROP` and has no other effect, and `DROP` stays 1 until the next accepted command
or reset. -/
def Obligations.DroppedWriteSetsStickyDrop : Prop :=
  (∀ (s : State) (a : Index) (v : Word), s.busy = true → memWrite a v s = { s with drop := true }) ∧
  (∀ s t : State, step s = .next t → s.drop = true →
    t.drop = true ∨ nextAgent s = .reset ∨ ∃ i, WritesNext s 0x01 (encode i))

/-- R52, R57: a host read has no side effect on any state of the block: only the host's observation grows. -/
def Obligations.ReadHasNoSideEffect : Prop :=
  ∀ (s : State) (a : Index),
    SameResults s (hostRead a s) ∧ (hostRead a s).err = s.err ∧ (hostRead a s).drop = s.drop ∧
    (hostRead a s).busy = s.busy ∧ (hostRead a s).pend = s.pend ∧
    (hostRead a s).reads = s.reads ++ [readValue a s] ∧
    (s.busy = false → ∀ b, readValue b (hostRead a s) = readValue b s)

/-- While `BUSY = 1` what a read returns depends on `D`, `DROP` and the free values alone: the results, the valid bits,
`ERR`, the pending command and the configuration do not show. THIS IS THE MODEL'S CHOICE (log entry 3): `Config.draw` is
applied to a counter alone, while R52 (U1, U2) allows any value there, one that shows such a register included. R31, R64,
R65: with `BUSY = 0` no read returns anything of `PEND` or of the configuration; with `BUSY = 1` that too rests on entry 3. -/
def Obligations.ReadsHideResultsAndConfiguration : Prop :=
  (∀ (s t : State), s.busy = true → t.busy = true → s.d = t.d → s.drop = t.drop → s.draws = t.draws →
    ∀ a, readValue a s = readValue a t) ∧
  ∀ (s : State) (p : Option Instr) (cfg : Config) (a : Index),
    readValue a { s with pend := p, cfg := cfg } = readValue a s

/-- R88: a `BNZ` reads its register and goes on at its target exactly when a masked bit of the value is 1; the block sees
only the read. With STATUS and mask 1 it is the loop of `WAIT`: it goes back exactly while `BUSY = 1` (R89). That the value
read joins the observation is the model's reading of R88 and R240 (log entry 11). -/
def Obligations.BranchFollowsMaskedRead : Prop :=
  ∀ (s : State) (a : Index) (mask : Word) (target : Nat),
    nextAgent s = .host → nextOp s = some (.bnz a mask target) →
    ∃ t, step s = .next t ∧ SameResults s t ∧ t.busy = s.busy ∧ t.pend = s.pend ∧ t.drop = s.drop ∧ t.err = s.err ∧
      t.reads = s.reads ++ [readValue a s] ∧
      (t.pos = target ∧ readValue a s &&& mask ≠ 0 ∨ t.pos = s.pos + 1 ∧ readValue a s &&& mask = 0) ∧
      (a = 0x02 → mask = 1 → t.pos = if s.busy then target else s.pos + 1)

/-- R89: the host actions that `CMD op`, `WAIT`, `RUN op` and `LDD imm102` expand to. -/
def Obligations.PseudoStatementsExpand : Prop :=
  (∀ i, assemble (pseudoCmd i) = some [.wr 0x01 ((i.op).setWidth 32)]) ∧
  (∀ l, assemble (pseudoWait l) = some [.bnz 0x02 0x1 0]) ∧
  (∀ i l, assemble (pseudoRun i l) = some [.wr 0x01 ((i.op).setWidth 32), .bnz 0x02 0x1 1]) ∧
  (∀ v : Payload, assemble (pseudoLdd v) =
    some [.wr 0x04 (v.extractLsb' 0 32), .wr 0x05 (v.extractLsb' 32 32), .wr 0x06 (v.extractLsb' 64 32),
      .wr 0x07 ((v.extractLsb' 96 6).setWidth 32)])

/-! ### Steps -/

/-- A step runs the decoded command: a CMD write of a word that decodes to `i` makes `i` pending, the engine's turn is then
`exec i` of the state, and the state `withFetchWord` makes (log entry 7) runs it in the very next step (R180, R185). In the
host's turn the step is the host's next action, whatever it is: a write is `memWrite`, a read or a branch `hostRead`, on the
state with the action behind it (R12, R52, R53, R88). That the value a branch reads joins the observation is the model's
reading of R88 and R240 (log entry 11); that a host with no action left only spends its turn, so that an ended run rests
(R240), is the model's choice (log entry 2). -/
def Obligations.StepRunsDecodedCommand : Prop :=
  (∀ (s : State) (a : Index) (v : Word), nextAgent s = .host → nextOp s = some (.wr a v) →
    step s = .next (memWrite a v { s with pos := s.pos + 1, sched := s.sched.tail })) ∧
  (∀ (s : State) (a : Index), nextAgent s = .host → nextOp s = some (.rd a) →
    step s = .next (hostRead a { s with pos := s.pos + 1, sched := s.sched.tail })) ∧
  (∀ (s : State) (a : Index) (mask : Word) (target : Nat), nextAgent s = .host → nextOp s = some (.bnz a mask target) →
    step s = .next (hostRead a
      { s with pos := if readValue a s &&& mask ≠ 0 then target else s.pos + 1, sched := s.sched.tail })) ∧
  (∀ s : State, nextAgent s = .host → nextOp s = none → step s = .next { s with sched := s.sched.tail }) ∧
  (∀ (s : State) (w : Word) (i : Instr), WritesNext s 0x01 w → decode w = .ok i →
    step s = .next { s with pos := s.pos + 1, sched := s.sched.tail, pend := some i, busy := true, drop := false }) ∧
  (∀ (s : State) (i : Instr), CompletesNext s i → step s = exec i { s with sched := s.sched.tail }) ∧
  (∀ (s : State) (w : Word) (i : Instr), decode w = .ok i →
    step (s.withFetchWord 32 w.toNat) = exec i { s with pend := some i, busy := true, drop := false })

/-- R180: every completion leaves the engine free (`PEND` none, `BUSY` 0), writes one of `OK`, `SEQUENCE`, `LOOKUP_RANGE`
to `ERR`, and leaves `D`, `DROP`, the configuration and the other agents alone. -/
def Obligations.CompletionFreesEngine : Prop :=
  ∀ (i : Instr) (s : State), ∃ t, exec i s = .next t ∧ t.pend = none ∧ t.busy = false ∧
    (t.err = 0 ∨ t.err = 2 ∨ t.err = 3) ∧ t.d = s.d ∧ t.drop = s.drop ∧ SameOutside s t

/-- R71: what the host does while a command is pending changes none of the registers the command reads, so its inputs are
the values they had when it was accepted; the command stays pending. -/
def Obligations.InputsHeldWhilePending : Prop :=
  ∀ s t : State, step s = .next t → s.busy = true → nextAgent s = .host →
    SameResults s t ∧ t.err = s.err ∧ t.busy = true ∧ t.pend = s.pend

/-- R239: a pending command completes, and with the inputs it was accepted with, if no reset comes first: within the turns
the schedule still holds. That the engine moves when the schedule has run out is the model's choice (log entry 2). -/
def Obligations.PendingCommandCompletes : Prop :=
  ∀ (s : State) (i : Instr), s.busy = true → s.pend = some i → Agent.reset ∉ s.sched →
    ∃ k u t, k ≤ s.sched.length ∧ steps k s = .next u ∧ SameResults s u ∧ CompletesNext u i ∧
      step u = .next t ∧ exec i { u with sched := u.sched.tail } = .next t ∧ t.busy = false ∧ t.pend = none

/-- R31, U16: from a state where `BUSY = 1` exactly when a command is pending a step always gives a next state, and it is
such a state again: no state of the block is stuck. -/
def Obligations.CoherentStatesAlwaysStep : Prop :=
  ∀ s : State, Coherent s → ∃ t, step s = .next t ∧ Coherent t

/-- R230, R231: reset is a step that can come next in every state; it sets every register of the block to 0 and `PEND` to
none, a pending command included, and leaves the configuration. -/
def Obligations.ResetStepClearsBlock : Prop :=
  (∀ s : State, nextAgent { s with sched := .reset :: s.sched } = .reset) ∧
  ∀ s : State, nextAgent s = .reset →
    ∃ t, step s = .next t ∧ t.d = 0 ∧ t.fcs = 0 ∧ (∀ i : Fin 10, t.cw[i] = 0) ∧ (∀ i : Fin 10, t.ch[i] = 0) ∧
      (∀ k : Fin 65, t.bar[k] = 0) ∧ t.fcsV = false ∧ t.cwV = false ∧ t.adjV = false ∧ t.chV = false ∧ t.barV = false ∧
      t.err = 0 ∧ t.drop = false ∧ t.busy = false ∧ t.pend = none ∧ t.cfg = s.cfg ∧
      readValue 0x02 t = 0x00000000 ∧ readValue 0x00 t = 0x494D4231

/-- R41: the reset values; the configuration is unchanged by reset. -/
def Obligations.ResetValues : Prop :=
  State.reset.d = 0 ∧ State.reset.fcs = 0 ∧ (∀ i : Fin 10, State.reset.cw[i] = 0) ∧
  (∀ i : Fin 10, State.reset.ch[i] = 0) ∧ (∀ k : Fin 65, State.reset.bar[k] = 0) ∧
  State.reset.fcsV = false ∧ State.reset.cwV = false ∧ State.reset.adjV = false ∧ State.reset.chV = false ∧
  State.reset.barV = false ∧ State.reset.err = 0 ∧ State.reset.drop = false ∧ State.reset.busy = false ∧
  State.reset.pend = none ∧ ∀ s : State, (resetBlock s).cfg = s.cfg

/-! ### CRC -/

/-- R100: CRC writes `crc11(D)` to `FCS`, 1 to `FCS_V` and `OK` to `ERR`; `crc11(0)` is `0x6E0`, and the worked example. -/
def Obligations.CrcWritesFcs : Prop :=
  (∀ s : State, exec .crc s =
    .next { s with fcs := crc11 s.d, fcsV := true, err := 0, pend := none, busy := false }) ∧
  crc11 0 = 0x6E0 ∧ crc11 0x016907B2A24ABC16A2E5C004B1 = 0x751

/-- R102: the byte-frame form computes the same function. -/
def Obligations.CrcFrameFormAgrees : Prop := ∀ d : Payload, crc11Frame d = crc11 d

/-- R103: one step keeps the low 11 bits and adds `0x735` on feedback. -/
def Obligations.CrcStepIsElevenBitStep : Prop :=
  ∀ (r : Fcs) (b : Bool),
    crcStep r b = (r <<< 1) ^^^ (if (r.getLsbD 10 ^^ b) = true then (0x735 : Fcs) else 0)

/-- R104: `crc11` is a remainder modulo the generator, it is affine, and each data bit adds its syndrome. -/
def Obligations.CrcIsPolynomialRemainder : Prop :=
  (∀ d : Payload, (crc11 d).toNat = polyMod 102 ((d.toNat <<< 11) ^^^ (0x7FF <<< 102))) ∧
  (∀ a b : Payload, crc11 (a ^^^ b) = crc11 a ^^^ crc11 b ^^^ crc11 0) ∧ crc11 0 = 0x6E0 ∧
  (∀ d : Payload, crc11 d =
    (List.range 102).foldl (fun r j => if d.getLsbD j then r ^^^ syndrome j else r) 0x6E0) ∧
  (∀ j, j < 102 → (syndrome j).toNat = polyMod 102 (2 ^ (11 + j)))

/-- R105: flipping any one bit of `D` changes the FCS, and any two single flips change it differently. -/
def Obligations.SingleBitFlipChangesFcs : Prop :=
  (∀ (d : Payload) (j : Nat), j < 102 → crc11 (d ^^^ BitVec.twoPow 102 j) ≠ crc11 d) ∧
  (∀ (d : Payload) (j k : Nat), j < 102 → k < 102 → j ≠ k →
    crc11 (d ^^^ BitVec.twoPow 102 j) ≠ crc11 (d ^^^ BitVec.twoPow 102 k))

/-! ### DECOMP and ADJUST -/

/-- R120: DECOMP writes the ten raw codewords, `CW_V = 1`, and 0 to the valid bits of the later stages. -/
def Obligations.DecompWritesCodewords : Prop :=
  ∀ s : State, exec .decomp s =
    .next { s with
      cw := decomp s.d, cwV := true, adjV := false, chV := false, barV := false, err := 0, pend := none, busy := false }

/-- R121: the codewords are the mixed-radix digits of `D`, none truncated. -/
def Obligations.DecompGivesMixedRadixDigits : Prop :=
  ∀ d : Payload,
    (decomp d)[9].toNat = d.toNat % 636 ∧
    (∀ (i : Nat) (h : i < 10), 1 ≤ i → i ≤ 8 → (decomp d)[i].toNat = d.toNat / (636 * 1365 ^ (8 - i)) % 1365) ∧
    (decomp d)[0].toNat = d.toNat / (636 * 1365 ^ 8)

/-- R122: the ranges of the raw codewords; 661 is reached. -/
def Obligations.RawCodewordRanges : Prop :=
  (∀ d : Payload, (decomp d)[9].toNat ≤ 635 ∧ (decomp d)[0].toNat ≤ 661 ∧
    ∀ (i : Nat) (h : i < 10), 1 ≤ i → i ≤ 8 → (decomp d)[i].toNat ≤ 1364) ∧
  (decomp (BitVec.allOnes 102))[0].toNat = 661

/-- R123: recombination gives back `D`, and `decomp` is injective. -/
def Obligations.DecompRecombines : Prop :=
  (∀ d : Payload, recombine (decomp d) = d.toNat) ∧ ∀ a b : Payload, decomp a = decomp b → a = b

/-- R124: ADJUST adjusts when the raw codewords and the FCS are valid and not yet adjusted; otherwise it raises `SEQUENCE`
and writes nothing else. -/
def Obligations.AdjustRunsOnceOrRaisesSequence : Prop :=
  ∀ s : State,
    (s.cwV = true ∧ s.adjV = false ∧ s.fcsV = true →
      exec .adjust s = .next { s with cw := adjust s.cw s.fcs, adjV := true, err := 0, pend := none, busy := false }) ∧
    (¬ (s.cwV = true ∧ s.adjV = false ∧ s.fcsV = true) →
      exec .adjust s = .next { s with err := 2, pend := none, busy := false })

/-- R125, R126: of the raw codewords of any `D`, codeword 9 is doubled, codeword 0 grows by 659 exactly when FCS bit 10 is
1, the others are unchanged, and all ten are indices of the character ROM. -/
def Obligations.AdjustedCodewordsInRange : Prop :=
  ∀ (d : Payload) (f : Fcs),
    (adjust (decomp d) f)[9].toNat = 2 * (decomp d)[9].toNat ∧ (adjust (decomp d) f)[9].toNat ≤ 1270 ∧
    (f.getLsbD 10 = false → (adjust (decomp d) f)[0].toNat = (decomp d)[0].toNat ∧
      (adjust (decomp d) f)[0].toNat ≤ 661) ∧
    (f.getLsbD 10 = true → (adjust (decomp d) f)[0].toNat = (decomp d)[0].toNat + 659 ∧
      659 ≤ (adjust (decomp d) f)[0].toNat ∧ (adjust (decomp d) f)[0].toNat ≤ 1320) ∧
    (∀ (i : Nat) (h : i < 10), 1 ≤ i → i ≤ 8 → (adjust (decomp d) f)[i] = (decomp d)[i]) ∧
    ∀ i : Fin 10, ((adjust (decomp d) f)[i]).toNat ≤ 1364

/-- R127: the adjustment is undone from the FCS, and `D` is recovered from the adjusted codewords. -/
def Obligations.AdjustIsUndone : Prop :=
  ∀ (d : Payload) (f : Fcs), unadjust (adjust (decomp d) f) f = decomp d ∧
    recombine (unadjust (adjust (decomp d) f) f) = d.toNat

/-- R236: after a successful ADJUST, whatever commands but DECOMP come between, the next ADJUST raises `SEQUENCE`; if no
ENCODE and no CLEAR came between either, the codewords are those the first one left. Over every step, DATA writes and reset
among them, no codewords ready to be adjusted come about but by the completion of DECOMP. -/
def Obligations.AdjustmentAppliedExactlyOnce : Prop :=
  (∀ (s t u : State) (l : List Instr), exec .adjust s = .next t → t.err = 0 → (∀ i ∈ l, i ≠ .decomp) →
    execAll l t = .next u →
    exec .adjust u = .next { u with err := 2, pend := none, busy := false } ∧
      ((∀ i ∈ l, i ≠ .encode ∧ i ≠ .clear) → u.cw = t.cw)) ∧
  (∀ s t : State, step s = .next t → s.adjV = true ∨ s.cwV = false →
    (t.adjV = true ∨ t.cwV = false) ∨ CompletesNext s .decomp)

/-! ### CHARMAP and BARMAP -/

/-- R140, R141, R209: CHARMAP writes the ten characters when the codewords are adjusted and in range: character `i` is the
ROM entry of codeword `i`, complemented exactly when FCS bit `i` is 1. Not adjusted, it raises `SEQUENCE`; out of range,
`LOOKUP_RANGE`; then nothing else is written. -/
def Obligations.CharmapWritesCharactersOrRaises : Prop :=
  ∀ s : State,
    (s.adjV = true → (∀ i : Fin 10, (s.cw[i]).toNat ≤ 1364) →
      ∃ ch : Vector Character 10,
        exec .charmap s = .next { s with ch := ch, chV := true, err := 0, pend := none, busy := false } ∧
        ∀ i : Fin 10, ∃ v, s.cfg.charRom[(s.cw[i]).toNat]? = some v ∧
          ch[i] = if s.fcs.getLsbD i.val then v ^^^ 0x1FFF else v) ∧
    (s.adjV = false → exec .charmap s = .next { s with err := 2, pend := none, busy := false }) ∧
    (s.adjV = true → (∃ i : Fin 10, 1364 < (s.cw[i]).toNat) →
      exec .charmap s = .next { s with err := 3, pend := none, busy := false })

/-- R145: a character differs from its ROM entry by the complement or not at all, its count of 1 bits follows, and FCS bits
9:0 can be read back where every ROM entry has fewer than seven 1 bits. -/
def Obligations.ComplementLaw : Prop :=
  ∀ (cfg : Config) (cs : Vector Codeword 10) (f : Fcs) (ch : Vector Character 10), charmap cfg cs f = some ch →
    ∀ i : Fin 10, ∃ v, cfg.charRom[(cs[i]).toNat]? = some v ∧
      ch[i] ^^^ v = (if f.getLsbD i.val then 0x1FFF else 0) ∧
      popcount ch[i] = (if f.getLsbD i.val then 13 - popcount v else popcount v) ∧
      ((∀ j : Fin 1365, popcount cfg.charRom[j] < 7) → f.getLsbD i.val = decide (6 < popcount ch[i]))

/-- R143: FCS bit 10 selects no character. -/
def Obligations.HighFcsBitSelectsNoCharacter : Prop :=
  ∀ (cfg : Config) (cs : Vector Codeword 10) (f g : Fcs), (∀ i, i < 10 → f.getLsbD i = g.getLsbD i) →
    charmap cfg cs f = charmap cfg cs g

/-- R160, R161: BARMAP writes the 65 bars when the characters are valid: bar `k` is twice its ascender bit plus its
descender bit. Otherwise it raises `SEQUENCE` and writes nothing else. -/
def Obligations.BarmapWritesBarsOrRaises : Prop :=
  ∀ s : State,
    (s.chV = true →
      ∃ b : Vector Bar 65, exec .barmap s = .next { s with bar := b, barV := true, err := 0, pend := none, busy := false } ∧
        ∀ k : Fin 65, (b[k]).toNat =
          2 * ((s.ch[(s.cfg.barRom[k]).asc.chr]).getLsbD (s.cfg.barRom[k]).asc.bit.val).toNat +
            ((s.ch[(s.cfg.barRom[k]).desc.chr]).getLsbD (s.cfg.barRom[k]).desc.bit.val).toNat) ∧
    (s.chV = false → exec .barmap s = .next { s with err := 2, pend := none, busy := false })

/-- R164: with pairwise distinct coordinates every character bit is used, and `barmap` is a bijection. -/
def Obligations.DistinctCoordinatesMakeBarmapBijective : Prop :=
  ∀ cfg : Config, CoordsDistinct cfg →
    (∀ xy : Coord, ∃ k : Fin 65, (cfg.barRom[k]).asc = xy ∨ (cfg.barRom[k]).desc = xy) ∧
    Function.Bijective (barmap cfg)

/-! ### NOP, ENCODE, CLEAR -/

/-- R181: NOP writes `OK` to `ERR`; issued from an idle state it clears `DROP` besides, and nothing else changes. -/
def Obligations.NopReportsSuccess : Prop :=
  (∀ s : State, exec .nop s = .next { s with err := 0, pend := none, busy := false }) ∧
  (∀ s : State, s.busy = false → s.pend = none →
    exec .nop (memWrite 0x01 0x00000000 s) = .next { s with err := 0, drop := false })

/-- R182: ENCODE, from any state, leaves the results of the whole pipeline for `D`, all five valid bits 1 and `OK`; it
raises nothing. -/
def Obligations.EncodeRunsWholePipeline : Prop :=
  ∀ s : State, ∃ ch : Vector Character 10,
    charmap s.cfg (adjust (decomp s.d) (crc11 s.d)) (crc11 s.d) = some ch ∧
    exec .encode s = .next { s with
      fcs := crc11 s.d, cw := adjust (decomp s.d) (crc11 s.d), ch := ch, bar := barmap s.cfg ch
      fcsV := true, cwV := true, adjV := true, chV := true, barV := true, err := 0, pend := none, busy := false }

/-- R182, R184: ENCODE equals the five stage commands performed one after the other; CRC and DECOMP may change places. -/
def Obligations.EncodeEqualsStageCommands : Prop :=
  ∀ s : State,
    execAll [.crc, .decomp, .adjust, .charmap, .barmap] s = exec .encode s ∧
    execAll [.decomp, .crc, .adjust, .charmap, .barmap] s = exec .encode s

/-- R183: CLEAR sets every result and every valid bit to 0 and keeps `D`; issued from an idle state it leaves the block at
its reset values but for `D`. -/
def Obligations.ClearDiscardsResults : Prop :=
  (∀ s : State, ∃ t, exec .clear s = .next t ∧ t.d = s.d ∧ t.fcs = 0 ∧ (∀ i : Fin 10, t.cw[i] = 0) ∧
    (∀ i : Fin 10, t.ch[i] = 0) ∧ (∀ k : Fin 65, t.bar[k] = 0) ∧ t.fcsV = false ∧ t.cwV = false ∧ t.adjV = false ∧
    t.chV = false ∧ t.barV = false ∧ t.err = 0 ∧ t.pend = none ∧ t.busy = false ∧ t.drop = s.drop ∧ SameOutside s t) ∧
  (∀ s : State, s.busy = false →
    exec .clear (memWrite 0x01 0x00000007 s) = .next { resetBlock s with d := s.d })

/-! ### Errors -/

/-- R204: a command raises `SEQUENCE` exactly when its prerequisite does not hold. -/
def Obligations.SequenceRaisedExactlyWhenPrerequisiteFails : Prop :=
  ∀ (i : Instr) (s t : State), exec i s = .next t →
    (t.err = 2 ↔ (i = .adjust ∧ ¬ (s.cwV = true ∧ s.adjV = false ∧ s.fcsV = true)) ∨
      (i = .charmap ∧ s.adjV = false) ∨ (i = .barmap ∧ s.chV = false))

/-- R206: a command that raises an error writes `ERR` and nothing else of its effects, and `PEND` and `BUSY` are cleared; a
rejected write writes only `ERR`. -/
def Obligations.ErrorsAreAllOrNothing : Prop :=
  (∀ (i : Instr) (s t : State), exec i s = .next t → t.err ≠ 0 →
    t = { s with err := t.err, pend := none, busy := false }) ∧
  (∀ (s : State) (a : Index) (v : Word), s.busy = false → ¬ (4 ≤ a.toNat ∧ a.toNat ≤ 7) →
    (a = 0x01 → ∀ i, v ≠ encode i) →
    memWrite a v s = { s with err := if a = 0x01 then 1 else 4 })

/-- R144, R205: where the valid bits tell the truth, no command raises `LOOKUP_RANGE`. -/
def Obligations.LookupRangeNeverRaised : Prop :=
  ∀ (i : Instr) (s t : State), ResultsValid s → exec i s = .next t → t.err ≠ 3

/-! ### The whole machine -/

/-- R42: the invariant holds after reset: of the reset state, and of the state a reset step leaves from anywhere. -/
def Obligations.InvariantHoldsAfterReset : Prop :=
  Inv State.reset ∧ ∀ s t : State, nextAgent s = .reset → step s = .next t → Inv t

/-- R42, R31, R201: every step keeps the invariant: the valid bits tell the truth about the results, `BUSY` is 1 exactly
when a command is pending, and `ERR` holds no reserved code and never `LOOKUP_RANGE`. -/
def Obligations.EveryStepKeepsInvariant : Prop :=
  ∀ s t : State, Inv s → step s = .next t → Inv t

/-- R28: what sets and what clears each valid bit, over every step. -/
def Obligations.ValidBitsChangeOnlyAsListed : Prop :=
  ∀ s t : State, step s = .next t →
    (s.fcsV = false → t.fcsV = true → CompletesNext s .crc ∨ CompletesNext s .encode) ∧
    (s.cwV = false → t.cwV = true → CompletesNext s .decomp ∨ CompletesNext s .encode) ∧
    (s.adjV = false → t.adjV = true → CompletesNext s .adjust ∨ CompletesNext s .encode) ∧
    (s.chV = false → t.chV = true → CompletesNext s .charmap ∨ CompletesNext s .encode) ∧
    (s.barV = false → t.barV = true → CompletesNext s .barmap ∨ CompletesNext s .encode) ∧
    (s.fcsV = true ∧ t.fcsV = false ∨ s.cwV = true ∧ t.cwV = false →
      DataWriteNext s ∨ CompletesNext s .clear ∨ nextAgent s = .reset) ∧
    (s.adjV = true ∧ t.adjV = false ∨ s.chV = true ∧ t.chV = false ∨ s.barV = true ∧ t.barV = false →
      CompletesNext s .decomp ∨ DataWriteNext s ∨ CompletesNext s .clear ∨ nextAgent s = .reset)

/-- R20, R21, R68: `D` is written only by host writes to DATA0 to DATA3 and by reset; `FCS`, `CW`, `CH` and `BAR` only by the
completions that name them and by reset; the configuration by nothing. R29, R210: `ERR` is written only by a completion, by
a write rejected with `BUSY = 0` and by reset. R31: `BUSY` and `PEND` only by an acceptance, by a completion and by reset. -/
def Obligations.RegistersWrittenOnlyAsListed : Prop :=
  ∀ s t : State, step s = .next t →
    (t.d ≠ s.d → DataWriteNext s ∨ nextAgent s = .reset) ∧
    (t.fcs ≠ s.fcs →
      CompletesNext s .crc ∨ CompletesNext s .encode ∨ CompletesNext s .clear ∨ nextAgent s = .reset) ∧
    (t.cw ≠ s.cw → CompletesNext s .decomp ∨ CompletesNext s .adjust ∨ CompletesNext s .encode ∨
      CompletesNext s .clear ∨ nextAgent s = .reset) ∧
    (t.ch ≠ s.ch →
      CompletesNext s .charmap ∨ CompletesNext s .encode ∨ CompletesNext s .clear ∨ nextAgent s = .reset) ∧
    (t.bar ≠ s.bar →
      CompletesNext s .barmap ∨ CompletesNext s .encode ∨ CompletesNext s .clear ∨ nextAgent s = .reset) ∧
    (t.err ≠ s.err → (∃ i, CompletesNext s i) ∨ RejectsNext s ∨ nextAgent s = .reset) ∧
    (t.busy ≠ s.busy ∨ t.pend ≠ s.pend → AcceptsNext s ∨ (∃ i, CompletesNext s i) ∨ nextAgent s = .reset) ∧
    t.cfg = s.cfg

/-- R7, R239: the latency is at least 1 and no step depends on it. -/
def Obligations.LatencyIsUnobservable : Prop :=
  (∀ (cfg : Config) (i : Instr), 1 ≤ latency cfg i) ∧
  ∀ (s : State) (l : Vector Nat 8), step (s.withLatency l) = mapNext (fun t => t.withLatency l) (step s) ∧
    ∀ a, readValue a (s.withLatency l) = readValue a s
end

