-- ==== Sys2Proof/Laws/State.lean ====
section
/-! SUPPORT. What each named update of State does to each field: one lemma per field per update, true by rfl. -/

namespace Sys2Proof.Machine

/-! ### State.setErr -/

@[simp] theorem State.setErr_d (s : State) (c : Status) : (s.setErr c).d = s.d := rfl
@[simp] theorem State.setErr_fcs (s : State) (c : Status) : (s.setErr c).fcs = s.fcs := rfl
@[simp] theorem State.setErr_cw (s : State) (c : Status) : (s.setErr c).cw = s.cw := rfl
@[simp] theorem State.setErr_ch (s : State) (c : Status) : (s.setErr c).ch = s.ch := rfl
@[simp] theorem State.setErr_bar (s : State) (c : Status) : (s.setErr c).bar = s.bar := rfl
@[simp] theorem State.setErr_fcsV (s : State) (c : Status) : (s.setErr c).fcsV = s.fcsV := rfl
@[simp] theorem State.setErr_cwV (s : State) (c : Status) : (s.setErr c).cwV = s.cwV := rfl
@[simp] theorem State.setErr_adjV (s : State) (c : Status) : (s.setErr c).adjV = s.adjV := rfl
@[simp] theorem State.setErr_chV (s : State) (c : Status) : (s.setErr c).chV = s.chV := rfl
@[simp] theorem State.setErr_barV (s : State) (c : Status) : (s.setErr c).barV = s.barV := rfl
@[simp] theorem State.setErr_err (s : State) (c : Status) : (s.setErr c).err = c.code := rfl
@[simp] theorem State.setErr_drop (s : State) (c : Status) : (s.setErr c).drop = s.drop := rfl
@[simp] theorem State.setErr_busy (s : State) (c : Status) : (s.setErr c).busy = s.busy := rfl
@[simp] theorem State.setErr_pend (s : State) (c : Status) : (s.setErr c).pend = s.pend := rfl
@[simp] theorem State.setErr_cfg (s : State) (c : Status) : (s.setErr c).cfg = s.cfg := rfl
@[simp] theorem State.setErr_script (s : State) (c : Status) : (s.setErr c).script = s.script := rfl
@[simp] theorem State.setErr_pos (s : State) (c : Status) : (s.setErr c).pos = s.pos := rfl
@[simp] theorem State.setErr_reads (s : State) (c : Status) : (s.setErr c).reads = s.reads := rfl
@[simp] theorem State.setErr_sched (s : State) (c : Status) : (s.setErr c).sched = s.sched := rfl
@[simp] theorem State.setErr_draws (s : State) (c : Status) : (s.setErr c).draws = s.draws := rfl

/-! ### State.finish -/

@[simp] theorem State.finish_d (s : State) : s.finish.d = s.d := rfl
@[simp] theorem State.finish_fcs (s : State) : s.finish.fcs = s.fcs := rfl
@[simp] theorem State.finish_cw (s : State) : s.finish.cw = s.cw := rfl
@[simp] theorem State.finish_ch (s : State) : s.finish.ch = s.ch := rfl
@[simp] theorem State.finish_bar (s : State) : s.finish.bar = s.bar := rfl
@[simp] theorem State.finish_fcsV (s : State) : s.finish.fcsV = s.fcsV := rfl
@[simp] theorem State.finish_cwV (s : State) : s.finish.cwV = s.cwV := rfl
@[simp] theorem State.finish_adjV (s : State) : s.finish.adjV = s.adjV := rfl
@[simp] theorem State.finish_chV (s : State) : s.finish.chV = s.chV := rfl
@[simp] theorem State.finish_barV (s : State) : s.finish.barV = s.barV := rfl
@[simp] theorem State.finish_err (s : State) : s.finish.err = s.err := rfl
@[simp] theorem State.finish_drop (s : State) : s.finish.drop = s.drop := rfl
@[simp] theorem State.finish_busy (s : State) : s.finish.busy = false := rfl
@[simp] theorem State.finish_pend (s : State) : s.finish.pend = none := rfl
@[simp] theorem State.finish_cfg (s : State) : s.finish.cfg = s.cfg := rfl
@[simp] theorem State.finish_script (s : State) : s.finish.script = s.script := rfl
@[simp] theorem State.finish_pos (s : State) : s.finish.pos = s.pos := rfl
@[simp] theorem State.finish_reads (s : State) : s.finish.reads = s.reads := rfl
@[simp] theorem State.finish_sched (s : State) : s.finish.sched = s.sched := rfl
@[simp] theorem State.finish_draws (s : State) : s.finish.draws = s.draws := rfl

/-! ### State.invalidate -/

@[simp] theorem State.invalidate_d (s : State) : s.invalidate.d = s.d := rfl
@[simp] theorem State.invalidate_fcs (s : State) : s.invalidate.fcs = s.fcs := rfl
@[simp] theorem State.invalidate_cw (s : State) : s.invalidate.cw = s.cw := rfl
@[simp] theorem State.invalidate_ch (s : State) : s.invalidate.ch = s.ch := rfl
@[simp] theorem State.invalidate_bar (s : State) : s.invalidate.bar = s.bar := rfl
@[simp] theorem State.invalidate_fcsV (s : State) : s.invalidate.fcsV = false := rfl
@[simp] theorem State.invalidate_cwV (s : State) : s.invalidate.cwV = false := rfl
@[simp] theorem State.invalidate_adjV (s : State) : s.invalidate.adjV = false := rfl
@[simp] theorem State.invalidate_chV (s : State) : s.invalidate.chV = false := rfl
@[simp] theorem State.invalidate_barV (s : State) : s.invalidate.barV = false := rfl
@[simp] theorem State.invalidate_err (s : State) : s.invalidate.err = s.err := rfl
@[simp] theorem State.invalidate_drop (s : State) : s.invalidate.drop = s.drop := rfl
@[simp] theorem State.invalidate_busy (s : State) : s.invalidate.busy = s.busy := rfl
@[simp] theorem State.invalidate_pend (s : State) : s.invalidate.pend = s.pend := rfl
@[simp] theorem State.invalidate_cfg (s : State) : s.invalidate.cfg = s.cfg := rfl
@[simp] theorem State.invalidate_script (s : State) : s.invalidate.script = s.script := rfl
@[simp] theorem State.invalidate_pos (s : State) : s.invalidate.pos = s.pos := rfl
@[simp] theorem State.invalidate_reads (s : State) : s.invalidate.reads = s.reads := rfl
@[simp] theorem State.invalidate_sched (s : State) : s.invalidate.sched = s.sched := rfl
@[simp] theorem State.invalidate_draws (s : State) : s.invalidate.draws = s.draws := rfl

/-! ### State.accept -/

@[simp] theorem State.accept_d (s : State) (i : Instr) : (s.accept i).d = s.d := rfl
@[simp] theorem State.accept_fcs (s : State) (i : Instr) : (s.accept i).fcs = s.fcs := rfl
@[simp] theorem State.accept_cw (s : State) (i : Instr) : (s.accept i).cw = s.cw := rfl
@[simp] theorem State.accept_ch (s : State) (i : Instr) : (s.accept i).ch = s.ch := rfl
@[simp] theorem State.accept_bar (s : State) (i : Instr) : (s.accept i).bar = s.bar := rfl
@[simp] theorem State.accept_fcsV (s : State) (i : Instr) : (s.accept i).fcsV = s.fcsV := rfl
@[simp] theorem State.accept_cwV (s : State) (i : Instr) : (s.accept i).cwV = s.cwV := rfl
@[simp] theorem State.accept_adjV (s : State) (i : Instr) : (s.accept i).adjV = s.adjV := rfl
@[simp] theorem State.accept_chV (s : State) (i : Instr) : (s.accept i).chV = s.chV := rfl
@[simp] theorem State.accept_barV (s : State) (i : Instr) : (s.accept i).barV = s.barV := rfl
@[simp] theorem State.accept_err (s : State) (i : Instr) : (s.accept i).err = s.err := rfl
@[simp] theorem State.accept_drop (s : State) (i : Instr) : (s.accept i).drop = false := rfl
@[simp] theorem State.accept_busy (s : State) (i : Instr) : (s.accept i).busy = true := rfl
@[simp] theorem State.accept_pend (s : State) (i : Instr) : (s.accept i).pend = some i := rfl
@[simp] theorem State.accept_cfg (s : State) (i : Instr) : (s.accept i).cfg = s.cfg := rfl
@[simp] theorem State.accept_script (s : State) (i : Instr) : (s.accept i).script = s.script := rfl
@[simp] theorem State.accept_pos (s : State) (i : Instr) : (s.accept i).pos = s.pos := rfl
@[simp] theorem State.accept_reads (s : State) (i : Instr) : (s.accept i).reads = s.reads := rfl
@[simp] theorem State.accept_sched (s : State) (i : Instr) : (s.accept i).sched = s.sched := rfl
@[simp] theorem State.accept_draws (s : State) (i : Instr) : (s.accept i).draws = s.draws := rfl

/-! ### State.markDropped -/

@[simp] theorem State.markDropped_d (s : State) : s.markDropped.d = s.d := rfl
@[simp] theorem State.markDropped_fcs (s : State) : s.markDropped.fcs = s.fcs := rfl
@[simp] theorem State.markDropped_cw (s : State) : s.markDropped.cw = s.cw := rfl
@[simp] theorem State.markDropped_ch (s : State) : s.markDropped.ch = s.ch := rfl
@[simp] theorem State.markDropped_bar (s : State) : s.markDropped.bar = s.bar := rfl
@[simp] theorem State.markDropped_fcsV (s : State) : s.markDropped.fcsV = s.fcsV := rfl
@[simp] theorem State.markDropped_cwV (s : State) : s.markDropped.cwV = s.cwV := rfl
@[simp] theorem State.markDropped_adjV (s : State) : s.markDropped.adjV = s.adjV := rfl
@[simp] theorem State.markDropped_chV (s : State) : s.markDropped.chV = s.chV := rfl
@[simp] theorem State.markDropped_barV (s : State) : s.markDropped.barV = s.barV := rfl
@[simp] theorem State.markDropped_err (s : State) : s.markDropped.err = s.err := rfl
@[simp] theorem State.markDropped_drop (s : State) : s.markDropped.drop = true := rfl
@[simp] theorem State.markDropped_busy (s : State) : s.markDropped.busy = s.busy := rfl
@[simp] theorem State.markDropped_pend (s : State) : s.markDropped.pend = s.pend := rfl
@[simp] theorem State.markDropped_cfg (s : State) : s.markDropped.cfg = s.cfg := rfl
@[simp] theorem State.markDropped_script (s : State) : s.markDropped.script = s.script := rfl
@[simp] theorem State.markDropped_pos (s : State) : s.markDropped.pos = s.pos := rfl
@[simp] theorem State.markDropped_reads (s : State) : s.markDropped.reads = s.reads := rfl
@[simp] theorem State.markDropped_sched (s : State) : s.markDropped.sched = s.sched := rfl
@[simp] theorem State.markDropped_draws (s : State) : s.markDropped.draws = s.draws := rfl

/-! ### State.spendTurn -/

@[simp] theorem State.spendTurn_d (s : State) : s.spendTurn.d = s.d := rfl
@[simp] theorem State.spendTurn_fcs (s : State) : s.spendTurn.fcs = s.fcs := rfl
@[simp] theorem State.spendTurn_cw (s : State) : s.spendTurn.cw = s.cw := rfl
@[simp] theorem State.spendTurn_ch (s : State) : s.spendTurn.ch = s.ch := rfl
@[simp] theorem State.spendTurn_bar (s : State) : s.spendTurn.bar = s.bar := rfl
@[simp] theorem State.spendTurn_fcsV (s : State) : s.spendTurn.fcsV = s.fcsV := rfl
@[simp] theorem State.spendTurn_cwV (s : State) : s.spendTurn.cwV = s.cwV := rfl
@[simp] theorem State.spendTurn_adjV (s : State) : s.spendTurn.adjV = s.adjV := rfl
@[simp] theorem State.spendTurn_chV (s : State) : s.spendTurn.chV = s.chV := rfl
@[simp] theorem State.spendTurn_barV (s : State) : s.spendTurn.barV = s.barV := rfl
@[simp] theorem State.spendTurn_err (s : State) : s.spendTurn.err = s.err := rfl
@[simp] theorem State.spendTurn_drop (s : State) : s.spendTurn.drop = s.drop := rfl
@[simp] theorem State.spendTurn_busy (s : State) : s.spendTurn.busy = s.busy := rfl
@[simp] theorem State.spendTurn_pend (s : State) : s.spendTurn.pend = s.pend := rfl
@[simp] theorem State.spendTurn_cfg (s : State) : s.spendTurn.cfg = s.cfg := rfl
@[simp] theorem State.spendTurn_script (s : State) : s.spendTurn.script = s.script := rfl
@[simp] theorem State.spendTurn_pos (s : State) : s.spendTurn.pos = s.pos := rfl
@[simp] theorem State.spendTurn_reads (s : State) : s.spendTurn.reads = s.reads := rfl
@[simp] theorem State.spendTurn_sched (s : State) : s.spendTurn.sched = s.sched.tail := rfl
@[simp] theorem State.spendTurn_draws (s : State) : s.spendTurn.draws = s.draws := rfl

/-! ### State.withLatency -/

@[simp] theorem State.withLatency_d (s : State) (l : Vector Nat 8) : (s.withLatency l).d = s.d := rfl
@[simp] theorem State.withLatency_fcs (s : State) (l : Vector Nat 8) : (s.withLatency l).fcs = s.fcs := rfl
@[simp] theorem State.withLatency_cw (s : State) (l : Vector Nat 8) : (s.withLatency l).cw = s.cw := rfl
@[simp] theorem State.withLatency_ch (s : State) (l : Vector Nat 8) : (s.withLatency l).ch = s.ch := rfl
@[simp] theorem State.withLatency_bar (s : State) (l : Vector Nat 8) : (s.withLatency l).bar = s.bar := rfl
@[simp] theorem State.withLatency_fcsV (s : State) (l : Vector Nat 8) : (s.withLatency l).fcsV = s.fcsV := rfl
@[simp] theorem State.withLatency_cwV (s : State) (l : Vector Nat 8) : (s.withLatency l).cwV = s.cwV := rfl
@[simp] theorem State.withLatency_adjV (s : State) (l : Vector Nat 8) : (s.withLatency l).adjV = s.adjV := rfl
@[simp] theorem State.withLatency_chV (s : State) (l : Vector Nat 8) : (s.withLatency l).chV = s.chV := rfl
@[simp] theorem State.withLatency_barV (s : State) (l : Vector Nat 8) : (s.withLatency l).barV = s.barV := rfl
@[simp] theorem State.withLatency_err (s : State) (l : Vector Nat 8) : (s.withLatency l).err = s.err := rfl
@[simp] theorem State.withLatency_drop (s : State) (l : Vector Nat 8) : (s.withLatency l).drop = s.drop := rfl
@[simp] theorem State.withLatency_busy (s : State) (l : Vector Nat 8) : (s.withLatency l).busy = s.busy := rfl
@[simp] theorem State.withLatency_pend (s : State) (l : Vector Nat 8) : (s.withLatency l).pend = s.pend := rfl
@[simp] theorem State.withLatency_cfg (s : State) (l : Vector Nat 8) : (s.withLatency l).cfg = { s.cfg with spareCycles := l } := rfl
@[simp] theorem State.withLatency_script (s : State) (l : Vector Nat 8) : (s.withLatency l).script = s.script := rfl
@[simp] theorem State.withLatency_pos (s : State) (l : Vector Nat 8) : (s.withLatency l).pos = s.pos := rfl
@[simp] theorem State.withLatency_reads (s : State) (l : Vector Nat 8) : (s.withLatency l).reads = s.reads := rfl
@[simp] theorem State.withLatency_sched (s : State) (l : Vector Nat 8) : (s.withLatency l).sched = s.sched := rfl
@[simp] theorem State.withLatency_draws (s : State) (l : Vector Nat 8) : (s.withLatency l).draws = s.draws := rfl

/-! ### hostRead, dataWrite and resetBlock -/

@[simp] theorem hostRead_d (a : Index) (s : State) : (hostRead a s).d = s.d := rfl
@[simp] theorem hostRead_fcs (a : Index) (s : State) : (hostRead a s).fcs = s.fcs := rfl
@[simp] theorem hostRead_cw (a : Index) (s : State) : (hostRead a s).cw = s.cw := rfl
@[simp] theorem hostRead_ch (a : Index) (s : State) : (hostRead a s).ch = s.ch := rfl
@[simp] theorem hostRead_bar (a : Index) (s : State) : (hostRead a s).bar = s.bar := rfl
@[simp] theorem hostRead_fcsV (a : Index) (s : State) : (hostRead a s).fcsV = s.fcsV := rfl
@[simp] theorem hostRead_cwV (a : Index) (s : State) : (hostRead a s).cwV = s.cwV := rfl
@[simp] theorem hostRead_adjV (a : Index) (s : State) : (hostRead a s).adjV = s.adjV := rfl
@[simp] theorem hostRead_chV (a : Index) (s : State) : (hostRead a s).chV = s.chV := rfl
@[simp] theorem hostRead_barV (a : Index) (s : State) : (hostRead a s).barV = s.barV := rfl
@[simp] theorem hostRead_err (a : Index) (s : State) : (hostRead a s).err = s.err := rfl
@[simp] theorem hostRead_drop (a : Index) (s : State) : (hostRead a s).drop = s.drop := rfl
@[simp] theorem hostRead_busy (a : Index) (s : State) : (hostRead a s).busy = s.busy := rfl
@[simp] theorem hostRead_pend (a : Index) (s : State) : (hostRead a s).pend = s.pend := rfl
@[simp] theorem hostRead_cfg (a : Index) (s : State) : (hostRead a s).cfg = s.cfg := rfl
@[simp] theorem hostRead_script (a : Index) (s : State) : (hostRead a s).script = s.script := rfl
@[simp] theorem hostRead_pos (a : Index) (s : State) : (hostRead a s).pos = s.pos := rfl
@[simp] theorem hostRead_reads (a : Index) (s : State) : (hostRead a s).reads = s.reads ++ [readValue a s] := rfl
@[simp] theorem hostRead_sched (a : Index) (s : State) : (hostRead a s).sched = s.sched := rfl
@[simp] theorem hostRead_draws (a : Index) (s : State) : (hostRead a s).draws = s.draws + 1 := rfl

@[simp] theorem dataWrite_d (k : Fin 4) (v : Word) (s : State) : (dataWrite k v s).d = putDataWord s.d k v := rfl
@[simp] theorem dataWrite_fcs (k : Fin 4) (v : Word) (s : State) : (dataWrite k v s).fcs = s.fcs := rfl
@[simp] theorem dataWrite_cw (k : Fin 4) (v : Word) (s : State) : (dataWrite k v s).cw = s.cw := rfl
@[simp] theorem dataWrite_ch (k : Fin 4) (v : Word) (s : State) : (dataWrite k v s).ch = s.ch := rfl
@[simp] theorem dataWrite_bar (k : Fin 4) (v : Word) (s : State) : (dataWrite k v s).bar = s.bar := rfl
@[simp] theorem dataWrite_fcsV (k : Fin 4) (v : Word) (s : State) : (dataWrite k v s).fcsV = false := rfl
@[simp] theorem dataWrite_cwV (k : Fin 4) (v : Word) (s : State) : (dataWrite k v s).cwV = false := rfl
@[simp] theorem dataWrite_adjV (k : Fin 4) (v : Word) (s : State) : (dataWrite k v s).adjV = false := rfl
@[simp] theorem dataWrite_chV (k : Fin 4) (v : Word) (s : State) : (dataWrite k v s).chV = false := rfl
@[simp] theorem dataWrite_barV (k : Fin 4) (v : Word) (s : State) : (dataWrite k v s).barV = false := rfl
@[simp] theorem dataWrite_err (k : Fin 4) (v : Word) (s : State) : (dataWrite k v s).err = s.err := rfl
@[simp] theorem dataWrite_drop (k : Fin 4) (v : Word) (s : State) : (dataWrite k v s).drop = s.drop := rfl
@[simp] theorem dataWrite_busy (k : Fin 4) (v : Word) (s : State) : (dataWrite k v s).busy = s.busy := rfl
@[simp] theorem dataWrite_pend (k : Fin 4) (v : Word) (s : State) : (dataWrite k v s).pend = s.pend := rfl
@[simp] theorem dataWrite_cfg (k : Fin 4) (v : Word) (s : State) : (dataWrite k v s).cfg = s.cfg := rfl
@[simp] theorem dataWrite_script (k : Fin 4) (v : Word) (s : State) : (dataWrite k v s).script = s.script := rfl
@[simp] theorem dataWrite_pos (k : Fin 4) (v : Word) (s : State) : (dataWrite k v s).pos = s.pos := rfl
@[simp] theorem dataWrite_reads (k : Fin 4) (v : Word) (s : State) : (dataWrite k v s).reads = s.reads := rfl
@[simp] theorem dataWrite_sched (k : Fin 4) (v : Word) (s : State) : (dataWrite k v s).sched = s.sched := rfl
@[simp] theorem dataWrite_draws (k : Fin 4) (v : Word) (s : State) : (dataWrite k v s).draws = s.draws := rfl

@[simp] theorem resetBlock_d (s : State) : (resetBlock s).d = 0 := rfl
@[simp] theorem resetBlock_fcs (s : State) : (resetBlock s).fcs = 0 := rfl
@[simp] theorem resetBlock_cw (s : State) : (resetBlock s).cw = Vector.replicate 10 0 := rfl
@[simp] theorem resetBlock_ch (s : State) : (resetBlock s).ch = Vector.replicate 10 0 := rfl
@[simp] theorem resetBlock_bar (s : State) : (resetBlock s).bar = Vector.replicate 65 0 := rfl
@[simp] theorem resetBlock_fcsV (s : State) : (resetBlock s).fcsV = false := rfl
@[simp] theorem resetBlock_cwV (s : State) : (resetBlock s).cwV = false := rfl
@[simp] theorem resetBlock_adjV (s : State) : (resetBlock s).adjV = false := rfl
@[simp] theorem resetBlock_chV (s : State) : (resetBlock s).chV = false := rfl
@[simp] theorem resetBlock_barV (s : State) : (resetBlock s).barV = false := rfl
@[simp] theorem resetBlock_err (s : State) : (resetBlock s).err = 0 := rfl
@[simp] theorem resetBlock_drop (s : State) : (resetBlock s).drop = false := rfl
@[simp] theorem resetBlock_busy (s : State) : (resetBlock s).busy = false := rfl
@[simp] theorem resetBlock_pend (s : State) : (resetBlock s).pend = none := rfl
@[simp] theorem resetBlock_cfg (s : State) : (resetBlock s).cfg = s.cfg := rfl
@[simp] theorem resetBlock_script (s : State) : (resetBlock s).script = s.script := rfl
@[simp] theorem resetBlock_pos (s : State) : (resetBlock s).pos = s.pos := rfl
@[simp] theorem resetBlock_reads (s : State) : (resetBlock s).reads = s.reads := rfl
@[simp] theorem resetBlock_sched (s : State) : (resetBlock s).sched = s.sched := rfl
@[simp] theorem resetBlock_draws (s : State) : (resetBlock s).draws = s.draws := rfl

end Sys2Proof.Machine
end

