-- ==== Sys2Proof/Laws/Ops.lean ====
section
/-! SUPPORT. What the shared operations can do, said once: the register map, decoding, host writes, and the two ways a
command ends. Proofs cite these and do not unfold the operations. -/

namespace Sys2Proof

/-- Each register stands at its own index. -/
@[simp] theorem Reg.ofIndex_index (r : Reg) : Reg.ofIndex r.index = some r := by
  cases r with
  | id => rfl
  | cmd => rfl
  | status => rfl
  | fcs => rfl
  | data k => revert k; decide
  | cw i => revert i; decide
  | ch i => revert i; decide
  | bar j => revert j; decide

/-- The map has no two names for an index. -/
theorem Reg.index_ofIndex {a : Index} {r : Reg} (h : Reg.ofIndex a = some r) : a = r.index := by
  have key : ∀ a : Index, ∀ r, r ∈ Reg.ofIndex a → a = r.index := by decide
  exact key a r h

/-- Where a word decodes, its reserved field is 0 and its opcode is the command's. -/
theorem decode_ok {w : Word} {i : Instr} (h : decode w = .ok i) : rsvField w = 0 ∧ opField w = i.op := by
  have ops : ∀ op : BitVec 4, ∀ i, instrOfOp op = some i → op = i.op := by
    intro op i
    revert op
    cases i <;> decide
  unfold decode at h
  split at h
  · cases h
  · next hr =>
    refine ⟨by simpa using hr, ops _ i ?_⟩
    cases ho : instrOfOp (opField w) with
    | none => rw [ho] at h; cases h
    | some j => rw [ho] at h; cases h; rfl

end Sys2Proof

namespace Sys2Proof.Machine

/-- How a command that succeeds ends. -/
@[simp] theorem succeed_eq (s : State) :
    succeed s = .next { s with err := Status.ok.code, pend := none, busy := false } := rfl

/-- How a command that raises an error ends. -/
@[simp] theorem raiseError_eq (c : Status) (s : State) :
    raiseError c s = .next { s with err := c.code, pend := none, busy := false } := rfl

/-- The outcomes of a host write, in the order they are tested (R208). -/
theorem memWrite_cases (a : Index) (v : Word) (s : State) :
    (s.busy = true ∧ memWrite a v s = s.markDropped) ∨
    (s.busy = false ∧ ∃ k, a = (Reg.data k).index ∧ memWrite a v s = dataWrite k v s) ∨
    (s.busy = false ∧ a = Reg.cmd.index ∧ ∃ i, decode v = .ok i ∧ memWrite a v s = s.accept i) ∨
    (s.busy = false ∧ a = Reg.cmd.index ∧ (∃ e, decode v = .error e) ∧ memWrite a v s = s.setErr .illegalCmd) ∨
    (s.busy = false ∧ a ≠ Reg.cmd.index ∧ (∀ k, a ≠ (Reg.data k).index) ∧ memWrite a v s = s.setErr .badWrite) := by
  by_cases hb : s.busy = true
  · exact .inl ⟨hb, by simp [memWrite, hb]⟩
  · have hb' : s.busy = false := by simpa using hb
    have bad : ∀ o, Reg.ofIndex a = o → o ≠ some .cmd → (∀ k, o ≠ some (.data k)) →
        memWrite a v s = s.setErr .badWrite →
        a ≠ Reg.cmd.index ∧ (∀ k, a ≠ (Reg.data k).index) ∧ memWrite a v s = s.setErr .badWrite := by
      rintro o rfl h1 h2 hm
      exact ⟨fun h => h1 (by rw [h]; simp), fun k h => h2 k (by rw [h]; simp), hm⟩
    cases ho : Reg.ofIndex a with
    | none =>
      exact .inr (.inr (.inr (.inr ⟨hb', bad none ho (by simp) (by simp) (by simp [memWrite, hb', ho])⟩)))
    | some r =>
      cases r with
      | data k => exact .inr (.inl ⟨hb', k, Reg.index_ofIndex ho, by simp [memWrite, hb', ho]⟩)
      | cmd =>
        cases hd : decode v with
        | ok i =>
          exact .inr (.inr (.inl ⟨hb', Reg.index_ofIndex ho, i, rfl, by simp [memWrite, cmdWrite, hb', ho, hd]⟩))
        | error e =>
          exact .inr (.inr (.inr (.inl
            ⟨hb', Reg.index_ofIndex ho, ⟨e, rfl⟩, by simp [memWrite, cmdWrite, hb', ho, hd]⟩)))
      | id => exact .inr (.inr (.inr (.inr ⟨hb', bad _ ho (by simp) (by simp) (by simp [memWrite, hb', ho])⟩)))
      | status => exact .inr (.inr (.inr (.inr ⟨hb', bad _ ho (by simp) (by simp) (by simp [memWrite, hb', ho])⟩)))
      | fcs => exact .inr (.inr (.inr (.inr ⟨hb', bad _ ho (by simp) (by simp) (by simp [memWrite, hb', ho])⟩)))
      | cw i => exact .inr (.inr (.inr (.inr ⟨hb', bad _ ho (by simp) (by simp) (by simp [memWrite, hb', ho])⟩)))
      | ch i => exact .inr (.inr (.inr (.inr ⟨hb', bad _ ho (by simp) (by simp) (by simp [memWrite, hb', ho])⟩)))
      | bar j => exact .inr (.inr (.inr (.inr ⟨hb', bad _ ho (by simp) (by simp) (by simp [memWrite, hb', ho])⟩)))

/-- A host write leaves everything outside the block's own registers alone, and the result registers (R54). -/
theorem memWrite_frame (a : Index) (v : Word) (s : State) :
    SameOutside s (memWrite a v s) ∧ (memWrite a v s).fcs = s.fcs ∧ (memWrite a v s).cw = s.cw ∧
      (memWrite a v s).ch = s.ch ∧ (memWrite a v s).bar = s.bar := by
  obtain ⟨-, h⟩ | ⟨-, k, -, h⟩ | ⟨-, -, i, -, h⟩ | ⟨-, -, -, h⟩ | ⟨-, -, -, h⟩ := memWrite_cases a v s <;>
    rw [h] <;> exact ⟨⟨rfl, rfl, rfl, rfl, rfl, rfl⟩, rfl, rfl, rfl, rfl⟩

end Sys2Proof.Machine
end

