-- ==== Sys2Proof/Laws/Exec.lean ====
section
/-! SUPPORT. What a completion can do, said once per command and once for all of them, and what a step can do. -/

namespace Sys2Proof.Machine

/-- The two ways ADJUST ends. -/
theorem execAdjust_cases (s : State) :
    (prerequisite .adjust s = true ∧ execAdjust s = succeed { s with cw := adjust s.cw s.fcs, adjV := true }) ∨
    (prerequisite .adjust s = false ∧ execAdjust s = raiseError .sequence s) := by
  cases h : prerequisite .adjust s
  · exact .inr ⟨rfl, by unfold execAdjust; rw [h]; rfl⟩
  · exact .inl ⟨rfl, by unfold execAdjust; rw [h]; rfl⟩

/-- The three ways CHARMAP ends. -/
theorem execCharmap_cases (s : State) :
    (prerequisite .charmap s = false ∧ execCharmap s = raiseError .sequence s) ∨
    (prerequisite .charmap s = true ∧ charmap s.cfg s.cw s.fcs = none ∧ execCharmap s = raiseError .lookupRange s) ∨
    (prerequisite .charmap s = true ∧ ∃ ch, charmap s.cfg s.cw s.fcs = some ch ∧
      execCharmap s = succeed { s with ch := ch, chV := true }) := by
  cases h : prerequisite .charmap s
  · exact .inl ⟨rfl, by unfold execCharmap; rw [h]; rfl⟩
  · cases hc : charmap s.cfg s.cw s.fcs with
    | none => exact .inr (.inl ⟨rfl, rfl, by unfold execCharmap; rw [h, hc]; rfl⟩)
    | some ch => exact .inr (.inr ⟨rfl, ch, rfl, by unfold execCharmap; rw [h, hc]; rfl⟩)

/-- The two ways BARMAP ends. -/
theorem execBarmap_cases (s : State) :
    (prerequisite .barmap s = true ∧ execBarmap s = succeed { s with bar := barmap s.cfg s.ch, barV := true }) ∨
    (prerequisite .barmap s = false ∧ execBarmap s = raiseError .sequence s) := by
  cases h : prerequisite .barmap s
  · exact .inr ⟨rfl, by unfold execBarmap; rw [h]; rfl⟩
  · exact .inl ⟨rfl, by unfold execBarmap; rw [h]; rfl⟩

/-- The two ways the second half of ENCODE ends. -/
theorem encodeFrom_cases (f : Fcs) (cs : Vector Codeword 10) (s : State) :
    (charmap s.cfg cs f = none ∧ encodeFrom f cs s = raiseError .lookupRange s) ∨
    ∃ ch, charmap s.cfg cs f = some ch ∧ encodeFrom f cs s = succeed (s.withResults f cs ch) := by
  cases hc : charmap s.cfg cs f with
  | none => exact .inl ⟨rfl, by simp only [encodeFrom, hc]⟩
  | some ch => exact .inr ⟨ch, rfl, by simp only [encodeFrom, hc]⟩

/-- The two ways ENCODE ends. -/
theorem execEncode_cases (s : State) :
    (charmap s.cfg (adjust (decomp s.d) (crc11 s.d)) (crc11 s.d) = none ∧ execEncode s = raiseError .lookupRange s) ∨
    ∃ ch, charmap s.cfg (adjust (decomp s.d) (crc11 s.d)) (crc11 s.d) = some ch ∧
      execEncode s = succeed (s.withResults (crc11 s.d) (adjust (decomp s.d) (crc11 s.d)) ch) :=
  encodeFrom_cases _ _ s

/-- Every completion is `succeed` of a state that differs in the result registers and their valid bits alone, or an error
raised on the state it found. -/
theorem exec_ends (i : Instr) (s : State) :
    (∃ u, exec i s = succeed u ∧ u.d = s.d ∧ u.err = s.err ∧ u.drop = s.drop ∧ SameOutside s u) ∨
    exec i s = raiseError .sequence s ∨ exec i s = raiseError .lookupRange s := by
  have same : SameOutside s s := ⟨rfl, rfl, rfl, rfl, rfl, rfl⟩
  cases i with
  | nop => exact .inl ⟨_, rfl, rfl, rfl, rfl, same⟩
  | crc => exact .inl ⟨_, rfl, rfl, rfl, rfl, ⟨rfl, rfl, rfl, rfl, rfl, rfl⟩⟩
  | decomp => exact .inl ⟨_, rfl, rfl, rfl, rfl, ⟨rfl, rfl, rfl, rfl, rfl, rfl⟩⟩
  | clear => exact .inl ⟨_, rfl, rfl, rfl, rfl, ⟨rfl, rfl, rfl, rfl, rfl, rfl⟩⟩
  | adjust =>
    obtain ⟨-, h⟩ | ⟨-, h⟩ := execAdjust_cases s
    · exact .inl ⟨_, h, rfl, rfl, rfl, ⟨rfl, rfl, rfl, rfl, rfl, rfl⟩⟩
    · exact .inr (.inl h)
  | charmap =>
    obtain ⟨-, h⟩ | ⟨-, -, h⟩ | ⟨-, ch, -, h⟩ := execCharmap_cases s
    · exact .inr (.inl h)
    · exact .inr (.inr h)
    · exact .inl ⟨_, h, rfl, rfl, rfl, ⟨rfl, rfl, rfl, rfl, rfl, rfl⟩⟩
  | barmap =>
    obtain ⟨-, h⟩ | ⟨-, h⟩ := execBarmap_cases s
    · exact .inl ⟨_, h, rfl, rfl, rfl, ⟨rfl, rfl, rfl, rfl, rfl, rfl⟩⟩
    · exact .inr (.inl h)
  | encode =>
    obtain ⟨-, h⟩ | ⟨ch, -, h⟩ := execEncode_cases s
    · exact .inr (.inr h)
    · exact .inl ⟨_, h, rfl, rfl, rfl, ⟨rfl, rfl, rfl, rfl, rfl, rfl⟩⟩

/-- The host's turn: nothing left to do, a write, a read, or a read with a branch. -/
theorem hostTurn_cases (s : State) :
    (nextOp s = none ∧ hostTurn s = s) ∨
    (∃ a v, nextOp s = some (.wr a v) ∧ hostTurn s = memWrite a v { s with pos := s.pos + 1 }) ∨
    ∃ a p, hostTurn s = hostRead a { s with pos := p } ∧
      (nextOp s = some (.rd a) ∧ p = s.pos + 1 ∨
        ∃ mask target, nextOp s = some (.bnz a mask target) ∧
          p = if readValue a s &&& mask ≠ 0 then target else s.pos + 1) := by
  unfold hostTurn nextOp
  cases h : s.script[s.pos]? with
  | none => exact .inl ⟨rfl, rfl⟩
  | some op =>
    cases op with
    | wr a v => exact .inr (.inl ⟨a, v, rfl, rfl⟩)
    | rd a => exact .inr (.inr ⟨a, _, rfl, .inl ⟨rfl, rfl⟩⟩)
    | bnz a mask target => exact .inr (.inr ⟨a, _, rfl, .inr ⟨mask, target, rfl, rfl⟩⟩)

/-- What a step that gives a next state did. -/
theorem step_cases {s t : State} (h : step s = .next t) :
    (nextAgent s = .host ∧ t = hostTurn s.spendTurn) ∨
    (nextAgent s = .engine ∧ s.busy = false ∧ t = s.spendTurn) ∨
    (nextAgent s = .engine ∧ s.busy = true ∧ ∃ i, s.pend = some i ∧ exec i s.spendTurn = .next t) ∨
    (nextAgent s = .reset ∧ t = resetBlock s.spendTurn) := by
  unfold step at h
  cases ha : nextAgent s with
  | host => rw [ha] at h; cases h; exact .inl ⟨rfl, rfl⟩
  | reset => rw [ha] at h; cases h; exact .inr (.inr (.inr ⟨rfl, rfl⟩))
  | engine =>
    rw [ha] at h
    cases hb : s.busy with
    | false =>
      simp only [engineTurn, State.spendTurn_busy, hb] at h
      cases h
      exact .inr (.inl ⟨rfl, rfl, rfl⟩)
    | true =>
      cases hp : s.pend with
      | none =>
        simp only [engineTurn, State.spendTurn_busy, State.spendTurn_pend, hb, hp, if_true] at h
        cases h
      | some i =>
        simp only [engineTurn, State.spendTurn_busy, State.spendTurn_pend, hb, hp, if_true] at h
        exact .inr (.inr (.inl ⟨rfl, rfl, i, rfl, h⟩))

end Sys2Proof.Machine
end

