-- ==== Sys2Proof/Laws/Datapath.lean ====
section
/-! SUPPORT. The datapath functions in the form proofs use: `decomp`, `adjust`, `charmap` and `barmap` entry by entry, and
each stage command where its prerequisite holds. -/

namespace Sys2Proof.Machine

/-- The codewords written out (R121). -/
theorem decomp_eq (d : Payload) : decomp d =
    #v[BitVec.ofNat 13 (d.toNat / 636 / 1365 / 1365 / 1365 / 1365 / 1365 / 1365 / 1365 / 1365),
       BitVec.ofNat 13 (d.toNat / 636 / 1365 / 1365 / 1365 / 1365 / 1365 / 1365 / 1365 % 1365),
       BitVec.ofNat 13 (d.toNat / 636 / 1365 / 1365 / 1365 / 1365 / 1365 / 1365 % 1365),
       BitVec.ofNat 13 (d.toNat / 636 / 1365 / 1365 / 1365 / 1365 / 1365 % 1365),
       BitVec.ofNat 13 (d.toNat / 636 / 1365 / 1365 / 1365 / 1365 % 1365),
       BitVec.ofNat 13 (d.toNat / 636 / 1365 / 1365 / 1365 % 1365),
       BitVec.ofNat 13 (d.toNat / 636 / 1365 / 1365 % 1365),
       BitVec.ofNat 13 (d.toNat / 636 / 1365 % 1365),
       BitVec.ofNat 13 (d.toNat / 636 % 1365),
       BitVec.ofNat 13 (d.toNat % 636)] := by
  unfold decomp
  rfl

/-- The codewords after the two adjustments, one by one (R125). -/
theorem adjust_entries (cs : Vector Codeword 10) (f : Fcs) :
    (adjust cs f)[9] = cs[9] * 2 ∧ (adjust cs f)[0] = (if f.getLsbD 10 then cs[0] + 659 else cs[0]) ∧
      ∀ (i : Nat) (h : i < 10), 1 ≤ i → i ≤ 8 → (adjust cs f)[i] = cs[i] := by
  unfold adjust addHighBit orient fcsOff
  cases f.getLsbD 10
  · simp only [Vector.getElem_set_self, Bool.false_eq_true, if_false, true_and]
    refine ⟨by simp, fun i h _ _ => by rw [Vector.getElem_set_ne]; omega⟩
  · simp only [if_true]
    refine ⟨by simp, by simp, fun i h _ _ => by rw [Vector.getElem_set_ne, Vector.getElem_set_ne] <;> omega⟩

/-- The characters, where every codeword is in range (R141). -/
theorem charmap_of_inRange (cfg : Config) {cs : Vector Codeword 10} (f : Fcs) (h : codewordsInRange cs) :
    charmap cfg cs f = some (Vector.ofFn fun i => character cfg cs f i (h i)) := by
  unfold charmap
  exact dif_pos h

/-- No characters, where a codeword is out of range (R142). -/
theorem charmap_of_not_inRange (cfg : Config) {cs : Vector Codeword 10} (f : Fcs) (h : ¬ codewordsInRange cs) :
    charmap cfg cs f = none := by
  unfold charmap
  exact dif_neg h

/-- The bars written out (R161). -/
theorem barmap_eq (cfg : Config) (ch : Vector Character 10) :
    barmap cfg ch = Vector.ofFn fun k => barOf (barRom cfg k) ch := by
  unfold barmap
  rfl

/-- ADJUST where its prerequisite holds. -/
theorem execAdjust_of_ready (s : State) (h1 : s.cwV = true) (h2 : s.adjV = false) (h3 : s.fcsV = true) :
    execAdjust s = succeed { s with cw := adjust s.cw s.fcs, adjV := true } := by
  obtain ⟨-, h⟩ | ⟨hp, -⟩ := execAdjust_cases s
  · exact h
  · simp [prerequisite, h1, h2, h3] at hp

/-- CHARMAP where its prerequisite holds and the characters are `ch`. -/
theorem execCharmap_of_ready (s : State) {ch : Vector Character 10} (h1 : s.adjV = true)
    (h2 : charmap s.cfg s.cw s.fcs = some ch) : execCharmap s = succeed { s with ch := ch, chV := true } := by
  obtain ⟨hp, -⟩ | ⟨-, hc, -⟩ | ⟨-, ch', hc, h⟩ := execCharmap_cases s
  · simp [prerequisite, h1] at hp
  · rw [h2] at hc; cases hc
  · rw [h2] at hc; cases hc; exact h

/-- BARMAP where its prerequisite holds. -/
theorem execBarmap_of_ready (s : State) (h1 : s.chV = true) :
    execBarmap s = succeed { s with bar := barmap s.cfg s.ch, barV := true } := by
  obtain ⟨-, h⟩ | ⟨hp, -⟩ := execBarmap_cases s
  · exact h
  · simp [prerequisite, h1] at hp

/-- A host write of CMD to an idle block (R185). -/
theorem memWrite_cmd (s : State) (v : Word) (h : s.busy = false) : memWrite 0x01 v s = cmdWrite v s := by
  unfold memWrite
  rw [if_neg (by simp [h])]
  rfl

/-- `andThen` runs on from a next state. -/
@[simp] theorem andThen_next (s : State) (k : State → Host.Outcome State Fault Refusal) : andThen (.next s) k = k s := rfl

/-- The valid bits tell the truth of a state that has the same results. -/
theorem ResultsValid.congr {s t : State} (hr : ResultsValid s) (h : SameResults s t) : ResultsValid t := by
  obtain ⟨h1, h2, h3, h4, h5, h6, h7, h8, h9, h10, h11⟩ := h
  obtain ⟨r1, r2, r3, r4, r5⟩ := hr
  constructor <;> simp only [*] <;> assumption

end Sys2Proof.Machine
end

