-- ==== Sys2Proof/Laws/Operands.lean ====
section
/-! SUPPORT. The words of `D`, bit by bit, and the packing of the bars, digit by digit. -/

namespace Sys2Proof.Machine

/-- Bit `i` of word `k` of `D` is bit `32k + i` of `D` (R35). -/
theorem dataWord_getLsbD (d : Payload) (k : Fin 4) (i : Nat) (h : i < 32) :
    (dataWord d k).getLsbD i = d.getLsbD (32 * k.val + i) := by
  have top : d.getLsbD (96 + i) = (decide (i < 6) && d.getLsbD (96 + i)) := by
    by_cases h6 : i < 6
    · simp [h6]
    · rw [BitVec.getLsbD_of_ge d (96 + i) (by omega)]; simp
  match k with
  | 0 => simp [dataWord, h]
  | 1 => simp [dataWord, h]
  | 2 => simp [dataWord, h]
  | 3 =>
    simp only [dataWord, BitVec.getLsbD_setWidth, BitVec.getLsbD_extractLsb', h, decide_true, Bool.true_and]
    exact top.symm

/-- A write of word `k` of `D` replaces the bits of that word and no other (R54). -/
theorem putDataWord_getLsbD (d : Payload) (k : Fin 4) (v : Word) (n : Nat) (hn : n < 102) :
    (putDataWord d k v).getLsbD n = if n / 32 = k.val then v.getLsbD (n % 32) else d.getLsbD n := by
  match k with
  | 0 =>
    change BitVec.getLsbD (d.extractLsb' 32 70 ++ v) n = if n / 32 = 0 then _ else _
    rw [BitVec.getLsbD_append]
    by_cases h : n < 32
    · rw [if_pos h, if_pos (by omega), show n % 32 = n by omega]
    · rw [if_neg h, if_neg (by omega)]
      simp [show n - 32 < 70 by omega, show 32 + (n - 32) = n by omega]
  | 1 =>
    change BitVec.getLsbD (d.extractLsb' 64 38 ++ v ++ d.extractLsb' 0 32) n = if n / 32 = 1 then _ else _
    rw [BitVec.getLsbD_append, BitVec.getLsbD_append]
    by_cases h : n < 32
    · rw [if_pos h, if_neg (by omega)]
      simp [h]
    · by_cases h2 : n < 64
      · rw [if_neg h, if_pos (by omega), if_pos (by omega), show n % 32 = n - 32 by omega]
      · rw [if_neg h, if_neg (by omega), if_neg (by omega)]
        simp [show n - 32 - 32 < 38 by omega, show 64 + (n - 32 - 32) = n by omega]
  | 2 =>
    change BitVec.getLsbD (d.extractLsb' 96 6 ++ v ++ d.extractLsb' 0 64) n = if n / 32 = 2 then _ else _
    rw [BitVec.getLsbD_append, BitVec.getLsbD_append]
    by_cases h : n < 64
    · rw [if_pos h, if_neg (by omega)]
      simp [h]
    · by_cases h2 : n < 96
      · rw [if_neg h, if_pos (by omega), if_pos (by omega), show n % 32 = n - 64 by omega]
      · rw [if_neg h, if_neg (by omega), if_neg (by omega)]
        simp [show n - 64 - 32 < 6 by omega, show 96 + (n - 64 - 32) = n by omega]
  | 3 =>
    change BitVec.getLsbD (v.extractLsb' 0 6 ++ d.extractLsb' 0 96) n = if n / 32 = 3 then _ else _
    rw [BitVec.getLsbD_append]
    by_cases h : n < 96
    · rw [if_pos h, if_neg (by omega)]
      simp [h]
    · rw [if_neg h, if_pos (by omega), show n % 32 = n - 96 by omega]
      simp [show n - 96 < 6 by omega]

/-- The first `n` bars of a bar word take `2n` bits. -/
theorem barSum_lt (bar : Vector Bar 65) (j : Nat) : ∀ n, barSum bar j n < 4 ^ n := by
  intro n
  induction n with
  | zero => simp [barSum]
  | succ m ih =>
    simp only [barSum, Nat.shiftLeft_eq, pow_mul, pow_succ]
    split
    · next h =>
      have := (bar[16 * j + m]).isLt
      have hp : 0 < 4 ^ m := by positivity
      norm_num at this ⊢
      nlinarith
    · omega

end Sys2Proof.Machine
end

