-- ==== Sys2Proof/Laws/PerInstr.lean ====
section
/-! SUPPORT. Statements made per command, one lemma per constructor of Instr (LAWS.json names the family). -/

namespace Sys2Proof.Laws.TableWord

/-- A command's word is well formed, and read with the opcode table's numbering it decodes to the command. -/
def Statement (i : Instr) : Prop :=
  i.wellFormed = true ∧ commandWordWellFormed (encode i) = true ∧ decodeTableWord 32 (encode i).toNat = some i

theorem nop : Statement .nop := ⟨rfl, by decide, by decide⟩
theorem crc : Statement .crc := ⟨rfl, by decide, by decide⟩
theorem decomp : Statement .decomp := ⟨rfl, by decide, by decide⟩
theorem adjust : Statement .adjust := ⟨rfl, by decide, by decide⟩
theorem charmap : Statement .charmap := ⟨rfl, by decide, by decide⟩
theorem barmap : Statement .barmap := ⟨rfl, by decide, by decide⟩
theorem encode : Statement .encode := ⟨rfl, by decide, by decide⟩
theorem clear : Statement .clear := ⟨rfl, by decide, by decide⟩

end Sys2Proof.Laws.TableWord
end

