-- ==== Sys2Proof/Tests/Slice0.lean ====
section
/-! SUPPORT. Tests: words and values written out from the spec (the file and rule stand with each), ill-formed terms that
the checks refuse, and for every obligation with hypotheses a witness that meets them. -/

namespace Sys2Proof.Tests

open Sys2Proof.Machine

/-! ### Test data (spec/95_test_vectors.md 2.3) -/

/-- `BAR_ROM_T[k] = ((k mod 10, k mod 13), ((k+1) mod 10, k mod 13))`. -/
def barRomT : Vector BarEntry 65 := Vector.ofFn fun k =>
  { asc := (⟨⟨k.val % 10, Nat.mod_lt _ (by decide)⟩, ⟨k.val % 13, Nat.mod_lt _ (by decide)⟩⟩ : Coord)
    desc := (⟨⟨(k.val + 1) % 10, Nat.mod_lt _ (by decide)⟩, ⟨k.val % 13, Nat.mod_lt _ (by decide)⟩⟩ : Coord) }

/-- `CHAR_ROM_T`, the identity table, with `BAR_ROM_T`. -/
def cfgT : Config where
  charRom     := ⟨⟨(List.range 1365).map (BitVec.ofNat 13)⟩, by simp⟩
  barRom      := barRomT
  spareCycles := Vector.replicate 8 0

/-- The block after reset with that configuration. -/
def idle : State := { State.reset with cfg := cfgT }

/-- The same with `i` accepted. -/
def running (i : Instr) : State := idle.accept i

/-- The same with `op` the host's next action. -/
def hosting (op : HostOp) : State := { idle with script := [op] }

/-- The USPS example's data (95_test_vectors.md 2.1). -/
def uspsD : Payload := 0x016907B2A24ABC16A2E5C004B1

/-- What holds of the next state, if there is one. -/
def nextHas (o : Host.Outcome State Fault Refusal) (p : State → Bool) : Bool :=
  match o with
  | .next t    => p t
  | .fault _   => false
  | .refused _ => false

/-- The numbers in ten registers. -/
def nats (v : Vector (BitVec 13) 10) : List Nat := v.toList.map BitVec.toNat

/-! ### Decoding (spec/30_encoding.md R80 to R84), each word written bit by bit from the opcode map -/

theorem test_decode_nop : decode 0b00000000000000000000000000000000 = .ok .nop := by decide
theorem test_decode_crc : decode 0b00000000000000000000000000000001 = .ok .crc := by decide
theorem test_decode_decomp : decode 0b00000000000000000000000000000010 = .ok .decomp := by decide
theorem test_decode_adjust : decode 0b00000000000000000000000000000011 = .ok .adjust := by decide
theorem test_decode_charmap : decode 0b00000000000000000000000000000100 = .ok .charmap := by decide
theorem test_decode_barmap : decode 0b00000000000000000000000000000101 = .ok .barmap := by decide
theorem test_decode_encode : decode 0b00000000000000000000000000000110 = .ok .encode := by decide
theorem test_decode_clear : decode 0b00000000000000000000000000000111 = .ok .clear := by decide

/-- R83: the first and the last reserved opcode. -/
theorem test_decode_reserved_opcode :
    decode 0x00000008 = .error .reservedOpcode ∧ decode 0x0000000F = .error .reservedOpcode := by decide

/-- R82, 95_test_vectors.md 2.7: a reserved bit set, at either end of the field, over a good opcode and a bad one. -/
theorem test_decode_reserved_bits :
    decode 0x00000011 = .error .reservedBits ∧ decode 0x80000000 = .error .reservedBits ∧
    decode 0x0000001F = .error .reservedBits := by decide

/-- The opcode table's numbering; a row has 32 bits, and log entry 17 says what is answered for another length. -/
theorem test_decodeTableWord :
    decodeTableWord 32 6 = some .encode ∧ decodeTableWord 32 8 = none ∧ decodeTableWord 16 6 = some .encode ∧
    decodeTableWord 40 6 = none ∧ decodeTableWord 32 0x100000006 = none := by decide

/-- R90, P1 and P2 of 95_test_vectors.md: listed transaction words. -/
theorem test_transaction_words :
    encodeTransaction (.write 0x04 0xE5C004B1) = 0x44E5C004B1 ∧ encodeTransaction (.write 0x07 0x1) = 0x4700000001 ∧
    encodeTransaction (.read 0x34) = 0x3400000000 ∧ decodeTransaction 0x4100000006 = some (.write 0x01 0x6) ∧
    decodeTransaction 0x8000000000 = none ∧ decodeTransaction 0x0200000001 = none := by decide

/-! ### Well-formedness: ill-formed terms are refused -/

theorem test_wf_command_words :
    commandWordWellFormed 0x00000007 = true ∧ commandWordWellFormed 0x00000008 = false ∧
    commandWordWellFormed 0x00000011 = false ∧ commandWordWellFormed 0x80000000 = false := by decide

/-- R87: each of the four fields one above its range is refused, all four at the top of their ranges are not. -/
theorem test_wf_bar_words :
    barWordWellFormed 0x9C9C = true ∧ barWordWellFormed 0xAC9C = false ∧ barWordWellFormed 0x9D9C = false ∧
    barWordWellFormed 0x9CAC = false ∧ barWordWellFormed 0x9C9D = false := by decide

/-- An image whose bar-ROM words are all `w` but for the last, which is `last`. -/
def image (w last : BitVec 16) : ConfigImage where
  charWords   := Vector.replicate 1365 0
  barWords    := (Vector.replicate 65 w).set 64 last
  spareCycles := Vector.replicate 8 0

theorem test_wf_image :
    (image 0x0000 0x9C9C).wellFormed = true ∧ (image 0x0000 0x9C9D).wellFormed = false := by decide +kernel

/-- R88: a label defined twice, and a branch without its label. -/
theorem test_wf_script :
    scriptWellFormed [.label 1, .bnz (.named .status) 1 1] = true ∧
    scriptWellFormed [.label 1, .label 1] = false ∧
    scriptWellFormed [.label 1, .bnz (.named .status) 1 2] = false ∧
    (assemble (pseudoRun .crc 0 ++ pseudoRun .decomp 1)).isSome = true ∧
    assemble (pseudoRun .crc 0 ++ pseudoRun .decomp 0) = none := by decide

/-! ### CRC (95_test_vectors.md 2.1) -/

/-- The corner cases. -/
theorem test_crc_corners :
    crc11 0 = 0x6E0 ∧ crc11 1 = 0x1D5 ∧ crc11 (2 ^ 96) = 0x0CA ∧ crc11 (2 ^ 97) = 0x581 ∧ crc11 (2 ^ 101) = 0x311 ∧
    crc11 (BitVec.allOnes 102) = 0x7BE ∧ crc11 0x7FF = 0x5AF ∧ crc11 uspsD = 0x751 ∧
    crc11 (uspsD ^^^ 2 ^ 50) = 0x2FA := by decide +kernel

/-- The frame form of R102 gives the same on the bits that the two readings of the source differ in (90_conflicts.md C2). -/
theorem test_crc_frame :
    crc11Frame uspsD = 0x751 ∧ crc11Frame (2 ^ 96) = 0x0CA ∧ crc11Frame (2 ^ 97) = 0x581 ∧
    frameByte uspsD 0 = 0x01 ∧ frameByte uspsD 1 = 0x69 ∧ frameByte uspsD 12 = 0xB1 := by decide +kernel

/-- The register after steps 1, 2, 6 and 12 of R101 for the USPS data. -/
theorem test_crc_trace :
    crcStep 0x7FF (uspsD.getLsbD 101) = 0x0CB ∧ crcStep 0x0CB (uspsD.getLsbD 100) = 0x196 ∧
    crcStep 0x385 (uspsD.getLsbD 96) = 0x03F ∧ crcStep 0x717 (uspsD.getLsbD 90) = 0x11B := by decide

/-- R106, the table of syndromes, bits 101 to 46. -/
theorem test_syndromes_high : ∀ p ∈
  ([(101, 0x5F1), (100, 0x562), (99, 0x2B1), (98, 0x6C2), (97, 0x361), (96, 0x62A), (95, 0x315), (94, 0x610)] ++
   [(93, 0x308), (92, 0x184), (91, 0x0C2), (90, 0x061), (89, 0x7AA), (88, 0x3D5), (87, 0x670), (86, 0x338)] ++
   [(85, 0x19C), (84, 0x0CE), (83, 0x067), (82, 0x7A9), (81, 0x44E), (80, 0x227), (79, 0x689), (78, 0x4DE)] ++
   [(77, 0x26F), (76, 0x6AD), (75, 0x4CC), (74, 0x266), (73, 0x133), (72, 0x703), (71, 0x41B), (70, 0x597)] ++
   [(69, 0x551), (68, 0x532), (67, 0x299), (66, 0x6D6), (65, 0x36B), (64, 0x62F), (63, 0x48D), (62, 0x5DC)] ++
   [(61, 0x2EE), (60, 0x177), (59, 0x721), (58, 0x40A), (57, 0x205), (56, 0x698), (55, 0x34C), (54, 0x1A6)] ++
   [(53, 0x0D3), (52, 0x7F3), (51, 0x463), (50, 0x5AB), (49, 0x54F), (48, 0x53D), (47, 0x504), (46, 0x282)] : List (Nat × Fcs)),
    syndrome p.1 = p.2 := by decide +kernel

/-- R106, the table of syndromes, bits 45 to 0. -/
theorem test_syndromes_low : ∀ p ∈
  ([(45, 0x141), (44, 0x73A), (43, 0x39D), (42, 0x654), (41, 0x32A), (40, 0x195), (39, 0x750), (38, 0x3A8)] ++
   [(37, 0x1D4), (36, 0x0EA), (35, 0x075), (34, 0x7A0), (33, 0x3D0), (32, 0x1E8), (31, 0x0F4), (30, 0x07A)] ++
   [(29, 0x03D), (28, 0x784), (27, 0x3C2), (26, 0x1E1), (25, 0x76A), (24, 0x3B5), (23, 0x640), (22, 0x320)] ++
   [(21, 0x190), (20, 0x0C8), (19, 0x064), (18, 0x032), (17, 0x019), (16, 0x796), (15, 0x3CB), (14, 0x67F)] ++
   [(13, 0x4A5), (12, 0x5C8), (11, 0x2E4), (10, 0x172), (9, 0x0B9), (8, 0x7C6), (7, 0x3E3), (6, 0x66B)] ++
   [(5, 0x4AF), (4, 0x5CD), (3, 0x57C), (2, 0x2BE), (1, 0x15F), (0, 0x735)] : List (Nat × Fcs)),
    syndrome p.1 = p.2 := by decide +kernel

/-- CRC in one step of the machine. -/
theorem test_crc_step :
    nextHas (step (({ idle with d := uspsD } : State).withFetchWord 32 1)) (fun t =>
      t.fcs == 0x751 && t.fcsV && !t.cwV && t.err == 0 && !t.busy && t.pend == none) = true := by decide +kernel

/-! ### DECOMP and ADJUST (95_test_vectors.md 2.2) -/

/-- Raw codewords: the row of 2^102 - 1, the row of 659 M - 1, and the source's scenario. -/
theorem test_decomp :
    nats (decomp (BitVec.allOnes 102)) = [661, 706, 226, 622, 1214, 744, 720, 1006, 1159, 39] ∧
    nats (decomp 0x3FC1A6FF8B3D202F1346FE60B3) = [658, 1364, 1364, 1364, 1364, 1364, 1364, 1364, 1364, 635] ∧
    nats (decomp 0x86C207A9380A65C2A55B04D15) = [87, 75, 805, 1319, 1249, 914, 1158, 1048, 29, 325] := by
  decide +kernel

/-- DECOMP in one step, which also makes adjusted results invalid. -/
theorem test_decomp_step :
    nextHas (step (({ idle with d := uspsD, adjV := true, chV := true, barV := true, fcsV := true } : State).withFetchWord 32 2))
      (fun t => nats t.cw == [14, 787, 607, 1022, 861, 19, 816, 1294, 35, 301] && t.cwV && !t.adjV && !t.chV && !t.barV &&
        t.fcsV) = true := by decide +kernel

/-- Adjusted codewords: FCS bit 10 set and clear, codeword 9 doubled. -/
theorem test_adjust :
    nats (adjust (decomp uspsD) 0x751) = [673, 787, 607, 1022, 861, 19, 816, 1294, 35, 602] ∧
    nats (adjust (decomp (2 ^ 101)) 0x311) = [330, 1035, 795, 993, 1289, 1054, 1042, 1185, 1262, 40] := by
  decide +kernel

/-- The sequencing vectors: the rows `CW_V`, `ADJ_V`, `FCS_V`, and what `ERR` and `ADJ_V` end as. -/
theorem test_adjust_sequencing :
    ∀ r ∈ ([(true, false, true, 0, true), (true, true, true, 2, true), (false, false, true, 2, false),
        (true, false, false, 2, false), (false, false, false, 2, false)] : List (Bool × Bool × Bool × StatusCode × Bool)),
      nextHas (exec .adjust { running .adjust with cwV := r.1, adjV := r.2.1, fcsV := r.2.2.1 })
        (fun t => t.err == r.2.2.2.1 && t.adjV == r.2.2.2.2 && !t.busy) = true := by decide +kernel

/-! ### CHARMAP (95_test_vectors.md 2.4) -/

/-- The adjusted USPS codewords, valid, with the USPS FCS. -/
def adjusted : State :=
  { idle with d := uspsD, fcs := 0x751, fcsV := true, cwV := true, adjV := true
              cw := #v[673, 787, 607, 1022, 861, 19, 816, 1294, 35, 602] }

theorem test_charmap :
    nextHas (step (adjusted.withFetchWord 32 4)) (fun t =>
      nats t.ch == [0x1D5E, 0x0313, 0x025F, 0x03FE, 0x1CA2, 0x0013, 0x1CCF, 0x050E, 0x1FDC, 0x1DA5] && t.chV && t.err == 0) =
      true := by decide +kernel

/-- R142, R209: a codeword of 1364 is looked up, one of 1365 is not, and before that the prerequisite is tested. -/
theorem test_charmap_range :
    nextHas (exec .charmap { adjusted with cw := Vector.replicate 10 1364 }) (fun t => t.err == 0) = true ∧
    nextHas (exec .charmap { adjusted with cw := (Vector.replicate 10 0).set 9 1365 })
      (fun t => t.err == 3 && !t.chV) = true ∧
    nextHas (exec .charmap { adjusted with adjV := false, cw := Vector.replicate 10 1365 }) (fun t => t.err == 2) = true := by
  decide +kernel

/-! ### BARMAP (95_test_vectors.md 2.5) -/

/-- Characters all ones at even places: bars 2 1 2 1 ..., and the packing of R39. -/
theorem test_barmap :
    nextHas (step (({ idle with ch := Vector.ofFn fun i => if i.val % 2 = 0 then 0x1FFF else 0, chV := true }
        : State).withFetchWord 32 5)) (fun t =>
      readValue 0x30 t == 0x66666666 && readValue 0x33 t == 0x66666666 && readValue 0x34 t == 2 && t.barV && t.err == 0) =
      true := by decide +kernel

/-- Bars without characters: `SEQUENCE`, and nothing else. -/
theorem test_barmap_sequence :
    nextHas (exec .barmap (running .barmap)) (fun t => t.err == 2 && !t.barV && !t.busy) = true := by decide +kernel

/-! ### NOP, ENCODE, CLEAR (95_test_vectors.md 2.6 and program P1) -/

/-- `RUN NOP` from `ERR = BAD_WRITE`, `DROP = 1`: STATUS goes from 0x42 to 0. -/
theorem test_nop :
    readValue 0x02 { idle with err := 4, drop := true } = 0x00000042 ∧
    nextHas (step (({ idle with err := 4, drop := true } : State).withFetchWord 32 0)) (fun t => readValue 0x02 t == 0) =
      true := by decide +kernel

/-- The USPS example through the whole pipeline, as the host reads it. -/
theorem test_encode :
    nextHas (step (({ idle with d := uspsD } : State).withFetchWord 32 6)) (fun t =>
      readValue 0x02 t == 0x00001F00 && readValue 0x08 t == 0x751 && readValue 0x10 t == 673 && readValue 0x19 t == 602 &&
      readValue 0x20 t == 0x1D5E && readValue 0x29 t == 0x1DA5 && readValue 0x30 t == 0x702361BD &&
      readValue 0x31 t == 0x37A67857 && readValue 0x32 t == 0xE6B7B70F && readValue 0x33 t == 0x4FA04E2E &&
      readValue 0x34 t == 2) = true := by decide +kernel

theorem test_clear :
    nextHas (step (({ adjusted with chV := true, barV := true } : State).withFetchWord 32 7)) (fun t =>
      readValue 0x02 t == 0 && t.fcs == 0 && nats t.cw == List.replicate 10 0 && t.d == uspsD) = true := by decide +kernel

/-! ### The host bus (95_test_vectors.md 2.7) -/

theorem test_reads :
    readValue 0x00 idle = 0x494D4231 ∧ readValue 0x01 idle = 0 ∧ readValue 0x03 idle = 0 ∧ readValue 0x3F idle = 0 ∧
    readValue 0x07 (memWrite 0x07 0xFFFFFFC1 idle) = 1 ∧ readValue 0x04 { running .crc with d := uspsD } = 0xE5C004B1 := by
  decide +kernel

theorem test_writes :
    (memWrite 0x01 0x00000008 idle).err = 1 ∧ (memWrite 0x01 0x00000011 idle).err = 1 ∧ (memWrite 0x08 0 idle).err = 4 ∧
    (memWrite 0x3F 0 idle).err = 4 ∧ (memWrite 0x3F 0 (running .nop)).err = 0 ∧ (memWrite 0x3F 0 (running .nop)).drop = true ∧
    (memWrite 0x04 0 adjusted).adjV = false ∧ (memWrite 0x01 0x6 idle).pend = some .encode := by decide +kernel

/-- An illegal word put where a command comes from is the host's write of it to CMD, which the block rejects. -/
theorem test_withFetchWord_illegal :
    nextHas (step (idle.withFetchWord 32 8)) (fun t => t.err == 1 && !t.busy && t.pend == none) = true := by decide +kernel

/-! ### Witnesses: for each obligation with hypotheses, states and operands that meet them, at the ends of their ranges -/

/-- The idle block whose next action is the reset environment's. -/
def resetting : State := { adjusted with sched := [.reset] }

/-- The host's write is next, a command is pending. -/
def writingWhileBusy : State := { running .crc with script := [.wr 0x04 0x5], sched := [.host, .engine], drop := true }

/-- `FCS` and the raw codewords of `D = 1`, valid. -/
def rawResults : State :=
  { idle with d := 1, fcs := crc11 1, fcsV := true, cw := decomp 1, cwV := true }

/-- A bar ROM that uses each character bit once: bar `k` takes bits `2k` and `2k + 1` of the 130. -/
def cfgDistinct : Config where
  charRom     := Vector.replicate 1365 0x001F
  barRom      := Vector.ofFn fun k =>
    { asc := (⟨⟨2 * k.val / 13, by omega⟩, ⟨2 * k.val % 13, Nat.mod_lt _ (by decide)⟩⟩ : Coord)
      desc := (⟨⟨(2 * k.val + 1) / 13, by omega⟩, ⟨(2 * k.val + 1) % 13, Nat.mod_lt _ (by decide)⟩⟩ : Coord) }
  spareCycles := Vector.replicate 8 0

theorem witness_DecodeInvertsEncode : Instr.wellFormed .clear = true ∧ decode 0x00000007 = .ok .clear := by decide

theorem witness_TransactionWordsReadBack :
    decodeTransaction 0x7FFFFFFFFF = some (.write 0x3F 0xFFFFFFFF) ∧ decodeTransaction 0 = some (.read 0) := by decide

theorem witness_BarWordsReadBack :
    (barEntryOfWord 0x9C9C).isSome = true ∧ (barEntryOfWord 0x0000).isSome = true ∧ barEntryOfWord 0xA000 = none ∧
    barEntryOfWord 0x000D = none := by decide

theorem witness_IllegalConfigurationRefused :
    (∃ k : Fin 65, barWordWellFormed (image 0x0000 0x9CAC).barWords[k] = false) ∧
    ∀ k : Fin 65, barWordWellFormed (image 0x0000 0x9C9C).barWords[k] = true :=
  ⟨⟨64, by decide +kernel⟩, by decide +kernel⟩

/-- Every statement with the hypothesis `BUSY = 0`, or `BUSY = 1`, or both of them: IdRegisterIsConstant,
StatusRegisterFields, ResultRegistersReadBack, BarRegistersPackBars, DataWriteReplacesWordAndInvalidates,
FourDataWritesAssembleD, CommandWriteAcceptsOrRejects, DroppedWriteSetsStickyDrop, ReadHasNoSideEffect,
NopReportsSuccess, ClearDiscardsResults. -/
theorem witness_busy : idle.busy = false ∧ idle.pend = none ∧ (running .encode).busy = true := ⟨rfl, rfl, rfl⟩

theorem witness_ReservedIndicesReadZeroRejectWrites :
    idle.busy = false ∧ ∀ a ∈ ([0x03, 0x09, 0x0F, 0x1A, 0x1F, 0x2A, 0x2F, 0x35, 0x3F] : List Index),
      (a.toNat = 0x03 ∨ (0x09 ≤ a.toNat ∧ a.toNat ≤ 0x0F) ∨ (0x1A ≤ a.toNat ∧ a.toNat ≤ 0x1F) ∨
        (0x2A ≤ a.toNat ∧ a.toNat ≤ 0x2F) ∨ 0x35 ≤ a.toNat) := ⟨rfl, by decide⟩

/-- The first and the last index of each of the three ranges of result registers. -/
theorem witness_ResultRegistersReadBack :
    ∀ a ∈ ([0x08, 0x10, 0x19, 0x20, 0x29] : List Index),
      a = 0x08 ∨ (0x10 ≤ a.toNat ∧ a.toNat ≤ 0x19) ∨ (0x20 ≤ a.toNat ∧ a.toNat ≤ 0x29) := by decide

theorem witness_BadWriteChangesOnlyErr :
    idle.busy = false ∧ ∀ a ∈ ([0x00, 0x02, 0x03, 0x08, 0x34, 0x3F] : List Index),
      a.toNat ≠ 1 ∧ ¬ (4 ≤ a.toNat ∧ a.toNat ≤ 7) := ⟨rfl, by decide⟩

theorem witness_IllegalCommandChangesOnlyErr :
    idle.busy = false ∧ ∀ v ∈ ([0x00000010, 0x80000000, 0x00000008, 0x0000000F] : List Word),
      v.extractLsb' 4 28 ≠ 0 ∨ 8 ≤ (v.extractLsb' 0 4).toNat := by
  refine ⟨rfl, fun v hv => ?_⟩
  simp only [List.mem_cons, List.not_mem_nil, or_false] at hv
  obtain rfl | rfl | rfl | rfl := hv <;> simp

theorem witness_CommandWriteAcceptsOrRejects : idle.busy = false ∧ ∀ i, (0x00000008 : Word) ≠ encode i :=
  ⟨rfl, by intro i; cases i <;> decide⟩

theorem witness_DroppedWriteSetsStickyDrop :
    writingWhileBusy.busy = true ∧ writingWhileBusy.drop = true ∧ ∃ t, step writingWhileBusy = .next t :=
  ⟨rfl, rfl, _, rfl⟩

theorem witness_ReadsHideResultsAndConfiguration :
    (running .crc).busy = true ∧ ({ running .clear with fcs := 0x7FF, chV := true } : State).busy = true ∧
    (running .crc).d = ({ running .clear with fcs := 0x7FF, chV := true } : State).d ∧
    (running .crc).drop = ({ running .clear with fcs := 0x7FF, chV := true } : State).drop ∧
    (running .crc).draws = ({ running .clear with fcs := 0x7FF, chV := true } : State).draws :=
  ⟨rfl, rfl, rfl, rfl, rfl⟩

/-- The loop of `WAIT`, on an idle block and on a busy one. -/
theorem witness_BranchFollowsMaskedRead :
    nextAgent (hosting (.bnz 0x02 0x1 0)) = .host ∧ nextOp (hosting (.bnz 0x02 0x1 0)) = some (.bnz 0x02 0x1 0) ∧
    nextAgent { running .crc with script := [.bnz 0x02 0x1 0], sched := [.host] } = .host ∧
    nextOp { running .crc with script := [.bnz 0x02 0x1 0], sched := [.host] } = some (.bnz 0x02 0x1 0) :=
  ⟨rfl, rfl, rfl, rfl⟩

/-- A host action of each kind, one written while busy among them, and a host with no action left. -/
theorem witness_StepRunsDecodedCommand :
    (nextAgent writingWhileBusy = .host ∧ nextOp writingWhileBusy = some (.wr 0x04 0x5)) ∧
    (nextAgent (hosting (.rd 0x3F)) = .host ∧ nextOp (hosting (.rd 0x3F)) = some (.rd 0x3F)) ∧
    (nextAgent (hosting (.bnz 0x02 0x1 0)) = .host ∧ nextOp (hosting (.bnz 0x02 0x1 0)) = some (.bnz 0x02 0x1 0)) ∧
    (nextAgent idle = .host ∧ nextOp idle = none) ∧
    WritesNext (hosting (.wr 0x01 0x00000006)) 0x01 0x00000006 ∧ decode 0x00000006 = .ok .encode ∧
    CompletesNext (running .encode) .encode :=
  ⟨⟨rfl, rfl⟩, ⟨rfl, rfl⟩, ⟨rfl, rfl⟩, ⟨rfl, rfl⟩, ⟨rfl, rfl, rfl⟩, by decide, rfl, rfl, rfl⟩

theorem witness_InputsHeldWhilePending :
    (∃ t, step writingWhileBusy = .next t) ∧ writingWhileBusy.busy = true ∧ nextAgent writingWhileBusy = .host :=
  ⟨⟨_, rfl⟩, rfl, rfl⟩

theorem witness_PendingCommandCompletes :
    writingWhileBusy.busy = true ∧ writingWhileBusy.pend = some .crc ∧ Agent.reset ∉ writingWhileBusy.sched :=
  ⟨rfl, rfl, by decide⟩

theorem witness_CoherentStatesAlwaysStep : Coherent idle ∧ Coherent (running .barmap) := ⟨rfl, rfl⟩

theorem witness_ResetStepClearsBlock : nextAgent resetting = .reset ∧ nextAgent { running .encode with sched := [.reset] } = .reset :=
  ⟨rfl, rfl⟩

theorem witness_CrcIsPolynomialRemainder : 0 < 102 ∧ 101 < 102 := by decide

theorem witness_SingleBitFlipChangesFcs : 0 < 102 ∧ 101 < 102 ∧ 0 ≠ 101 := by decide

/-- The ends of the range of `i` in DecompGivesMixedRadixDigits, RawCodewordRanges, AdjustedCodewordsInRange. -/
theorem witness_DecompGivesMixedRadixDigits : (1 < 10 ∧ 1 ≤ 1 ∧ 1 ≤ 8) ∧ (8 < 10 ∧ 1 ≤ 8 ∧ 8 ≤ 8) := by decide

theorem witness_DecompRecombines : decomp uspsD = decomp 0x016907B2A24ABC16A2E5C004B1 := rfl

theorem witness_AdjustRunsOnceOrRaisesSequence :
    (rawResults.cwV = true ∧ rawResults.adjV = false ∧ rawResults.fcsV = true) ∧
    ¬ (adjusted.cwV = true ∧ adjusted.adjV = false ∧ adjusted.fcsV = true) := ⟨⟨rfl, rfl, rfl⟩, by decide⟩

theorem witness_AdjustedCodewordsInRange :
    (0x3FF : Fcs).getLsbD 10 = false ∧ (0x400 : Fcs).getLsbD 10 = true := by decide

/-- Between the two: a list without ENCODE and CLEAR, a list with CLEAR, and the step of another command than DECOMP. -/
theorem witness_AdjustmentAppliedExactlyOnce :
    (∃ t u, exec .adjust rawResults = .next t ∧ t.err = 0 ∧ (∀ i ∈ [Instr.nop, .crc, .adjust, .barmap], i ≠ .decomp) ∧
      execAll [.nop, .crc, .adjust, .barmap] t = .next u ∧
      ∀ i ∈ [Instr.nop, .crc, .adjust, .barmap], i ≠ .encode ∧ i ≠ .clear) ∧
    (∃ t u, exec .adjust rawResults = .next t ∧ t.err = 0 ∧ (∀ i ∈ [Instr.clear, .crc], i ≠ .decomp) ∧
      execAll [.clear, .crc] t = .next u) ∧
    ∃ t, step { adjusted with script := [.wr 0x04 0x5] } = .next t ∧ (adjusted.adjV = true ∨ adjusted.cwV = false) :=
  ⟨⟨_, _, rfl, rfl, by decide, rfl, by decide⟩, ⟨_, _, rfl, rfl, by decide, rfl⟩, _, rfl, .inl rfl⟩

theorem witness_CharmapWritesCharactersOrRaises :
    (adjusted.adjV = true ∧ ∀ i : Fin 10, (adjusted.cw[i]).toNat ≤ 1364) ∧ rawResults.adjV = false ∧
    (({ adjusted with cw := Vector.replicate 10 1364 } : State).adjV = true ∧
      ∀ i : Fin 10, (({ adjusted with cw := Vector.replicate 10 1364 } : State).cw[i]).toNat ≤ 1364) ∧
    ({ adjusted with cw := Vector.replicate 10 1365 } : State).adjV = true ∧
      ∃ i : Fin 10, 1364 < (({ adjusted with cw := Vector.replicate 10 1365 } : State).cw[i]).toNat :=
  ⟨⟨rfl, by decide +kernel⟩, rfl, ⟨rfl, by decide +kernel⟩, rfl, 9, by decide +kernel⟩

/-- Every ROM entry of `cfgDistinct` has five 1 bits. -/
theorem witness_ComplementLaw :
    (∃ ch, charmap cfgDistinct (Vector.replicate 10 1364) 0x751 = some ch) ∧
    ∀ j : Fin 1365, popcount cfgDistinct.charRom[j] < 7 := by
  refine ⟨⟨_, charmap_of_inRange _ _ fun i => ?_⟩, fun j => ?_⟩
  · simp
  · have h : cfgDistinct.charRom[j] = 0x001F := by simp [cfgDistinct]
    rw [h]
    decide

theorem witness_HighFcsBitSelectsNoCharacter : ∀ i, i < 10 → (0x751 : Fcs).getLsbD i = (0x351 : Fcs).getLsbD i := by
  decide

theorem witness_BarmapWritesBarsOrRaises : ({ adjusted with chV := true } : State).chV = true ∧ adjusted.chV = false :=
  ⟨rfl, rfl⟩

theorem witness_DistinctCoordinatesMakeBarmapBijective : CoordsDistinct cfgDistinct := by
  unfold CoordsDistinct
  decide +kernel

theorem witness_SequenceRaisedExactlyWhenPrerequisiteFails :
    (∃ t, exec .adjust rawResults = .next t) ∧ (∃ t, exec .adjust idle = .next t) ∧ (∃ t, exec .charmap idle = .next t) ∧
    ∃ t, exec .barmap idle = .next t := ⟨⟨_, rfl⟩, ⟨_, rfl⟩, ⟨_, rfl⟩, _, rfl⟩

theorem witness_ErrorsAreAllOrNothing :
    (∃ t, exec .barmap idle = .next t ∧ t.err ≠ 0) ∧ idle.busy = false ∧
    (∀ a ∈ ([0x00, 0x01, 0x03, 0x08, 0x3F] : List Index), ¬ (4 ≤ a.toNat ∧ a.toNat ≤ 7)) ∧
    ∀ i, (0x00000008 : Word) ≠ encode i :=
  ⟨⟨_, rfl, by decide⟩, rfl, by decide, by intro i; cases i <;> decide⟩

theorem rawResults_valid : ResultsValid rawResults :=
  ⟨fun _ => rfl, fun _ _ => rfl, fun h => (by cases h), fun h => (by cases h), fun h => (by cases h)⟩

theorem witness_LookupRangeNeverRaised : ResultsValid rawResults ∧ ∃ t, exec .adjust rawResults = .next t :=
  ⟨rawResults_valid, _, rfl⟩

theorem witness_InvariantHoldsAfterReset : nextAgent resetting = .reset ∧ ∃ t, step resetting = .next t := ⟨rfl, _, rfl⟩

theorem witness_EveryStepKeepsInvariant :
    Inv (rawResults.accept .adjust) ∧ ∃ t, step (rawResults.accept .adjust) = .next t :=
  ⟨⟨rfl, rawResults_valid.congr ⟨rfl, rfl, rfl, rfl, rfl, rfl, rfl, rfl, rfl, rfl, rfl⟩, .inl rfl⟩, _, rfl⟩

/-- A step that sets valid bits, and one that clears them. -/
theorem witness_ValidBitsChangeOnlyAsListed :
    (∃ t, step (running .crc) = .next t ∧ (running .crc).fcsV = false ∧ t.fcsV = true) ∧
    ∃ t, step { adjusted with script := [.wr 0x07 0] } = .next t ∧ adjusted.adjV = true ∧ t.adjV = false :=
  ⟨⟨_, rfl, rfl, rfl⟩, _, rfl, rfl, rfl⟩

/-- Steps that write `D`, `FCS`, `ERR` (a rejected write, a completion), `BUSY` and `PEND` (an acceptance). -/
theorem witness_RegistersWrittenOnlyAsListed :
    nextHas (step (hosting (.wr 0x07 0x3F))) (fun t => t.d != idle.d) = true ∧
    nextHas (step (running .crc)) (fun t => t.fcs != idle.fcs) = true ∧
    nextHas (step (hosting (.wr 0x3F 0))) (fun t => t.err != idle.err) = true ∧
    nextHas (step (running .adjust)) (fun t => t.err != idle.err) = true ∧
    nextHas (step (hosting (.wr 0x01 0x7))) (fun t => t.busy != idle.busy && t.pend != idle.pend) = true := by
  decide +kernel

end Sys2Proof.Tests
end

section
/-! PROOF. Which operation a step performs (spec/00_scope.md R12, spec/45_control.md R180, R185): in the host's turn its
next action, in the engine's turn the pending command. -/

namespace Sys2Proof.Machine

/-! ### The host's turn, action by action -/

theorem hostTurn_of_none {s : State} (h : nextOp s = none) : hostTurn s = s := by
  unfold nextOp at h
  simp only [hostTurn, h]

theorem hostTurn_of_wr {s : State} {a : Index} {v : Word} (h : nextOp s = some (.wr a v)) :
    hostTurn s = memWrite a v { s with pos := s.pos + 1 } := by
  unfold nextOp at h
  simp only [hostTurn, h, transact]

theorem hostTurn_of_rd {s : State} {a : Index} (h : nextOp s = some (.rd a)) :
    hostTurn s = hostRead a { s with pos := s.pos + 1 } := by
  unfold nextOp at h
  simp only [hostTurn, h, transact]

theorem hostTurn_of_bnz {s : State} {a : Index} {mask : Word} {target : Nat}
    (h : nextOp s = some (.bnz a mask target)) :
    hostTurn s = hostRead a { s with pos := if readValue a s &&& mask ≠ 0 then target else s.pos + 1 } := by
  unfold nextOp at h
  simp only [hostTurn, h, transact]

/-! ### Steps, agent by agent -/

/-- In the host's turn a step is the host's (R12). -/
theorem step_of_host {s : State} (h : nextAgent s = .host) : step s = .next (hostTurn s.spendTurn) := by
  simp only [step, h]

/-- In the host's turn a write it does next is performed, with the action behind it (R12, R53). -/
theorem step_of_wr {s : State} {a : Index} {v : Word} (ha : nextAgent s = .host) (ho : nextOp s = some (.wr a v)) :
    step s = .next (memWrite a v { s with pos := s.pos + 1, sched := s.sched.tail }) := by
  rw [step_of_host ha, hostTurn_of_wr (s := s.spendTurn) ho]
  rfl

/-- A completion step performs the pending command (R180). -/
theorem step_of_completesNext {s : State} {i : Instr} (h : CompletesNext s i) : step s = exec i s.spendTurn := by
  obtain ⟨ha, hb, hp⟩ := h
  simp [step, engineTurn, ha, hb, hp]

/-- A write of a command's word to CMD of an idle block is accepted (R185). -/
theorem memWrite_cmd_of_decode {s : State} {w : Word} {i : Instr} (hb : s.busy = false) (h : decode w = .ok i) :
    memWrite 0x01 w s = s.accept i := by
  rw [memWrite_cmd s w hb]
  simp only [cmdWrite, h]

/-! ### A command put where the engine takes its next one -/

/-- Of a 32-bit word the table's decoder reads the command that it spells (R85). -/
theorem decodeTableWord_of_decode {w : Word} {i : Instr} (h : decode w = .ok i) :
    decodeTableWord 32 w.toNat = some i := by
  simp only [decodeTableWord, w.isLt, Nat.le_refl, and_self, if_true, BitVec.ofNat_toNat, BitVec.setWidth_eq, h]

/-- The state `withFetchWord` makes of a command's word (log entry 7). -/
theorem withFetchWord_of_decode (s : State) {w : Word} {i : Instr} (h : decode w = .ok i) :
    s.withFetchWord 32 w.toNat = { s.accept i with sched := .engine :: s.sched } := by
  simp only [State.withFetchWord, decodeTableWord_of_decode h]

/-- In that state the engine completes the command next. -/
theorem withFetchWord_completesNext (s : State) {w : Word} {i : Instr} (h : decode w = .ok i) :
    CompletesNext (s.withFetchWord 32 w.toNat) i := by
  rw [withFetchWord_of_decode s h]
  exact ⟨rfl, rfl, rfl⟩

/-- Settles O23, by the agent that moves and, in the host's turn, by its next action. -/
theorem stepRunsDecodedCommand : Obligations.StepRunsDecodedCommand := by
  refine ⟨fun s a v ha ho => step_of_wr ha ho, fun s a ha ho => ?read, fun s a mask target ha ho => ?branch,
    fun s ha ho => ?ended, fun s w i hw hd => ?accept, fun s i h => step_of_completesNext h, fun s w i hd => ?fetch⟩
  case read => rw [step_of_host ha, hostTurn_of_rd (s := s.spendTurn) ho]; rfl
  case branch => rw [step_of_host ha, hostTurn_of_bnz (s := s.spendTurn) ho]; rfl
  case ended => rw [step_of_host ha, hostTurn_of_none (s := s.spendTurn) ho]; rfl
  case accept =>
    obtain ⟨ha, ho, hb⟩ := hw
    rw [step_of_wr ha ho, memWrite_cmd_of_decode (s := { s with pos := s.pos + 1, sched := s.sched.tail }) hb hd]
    rfl
  case fetch =>
    rw [step_of_completesNext (withFetchWord_completesNext s hd), withFetchWord_of_decode s hd]
    rfl

end Sys2Proof.Machine
end

section
/-! PROOF. The latency (spec/00_scope.md R7, R239): every operation commutes with a change of it, so no step and no read
depends on it. -/

namespace Sys2Proof.Machine

/-- Every latency is a number of spare cycles and one more (R7). -/
theorem one_le_latency (cfg : Config) (i : Instr) : 1 ≤ latency cfg i := by
  cases i <;> exact Nat.le_add_left 1 _

/-! ### Reading a state with another latency -/

@[simp] theorem nextAgent_withLatency (s : State) (l : Vector Nat 8) : nextAgent (s.withLatency l) = nextAgent s := rfl
@[simp] theorem prerequisite_withLatency (i : Instr) (s : State) (l : Vector Nat 8) :
    prerequisite i (s.withLatency l) = prerequisite i s := rfl

/-- No read sees the configuration at all (R52). -/
@[simp] theorem readValue_withLatency (a : Index) (s : State) (l : Vector Nat 8) :
    readValue a (s.withLatency l) = readValue a s := rfl

/-- The characters depend on the configuration by its character ROM alone (R141). -/
@[simp] theorem charmap_spareCycles (cfg : Config) (l : Vector Nat 8) (cs : Vector Codeword 10) (f : Fcs) :
    charmap { cfg with spareCycles := l } cs f = charmap cfg cs f := by
  unfold charmap
  rfl

/-- The bars depend on the configuration by its bar ROM alone (R161). -/
@[simp] theorem barmap_spareCycles (cfg : Config) (l : Vector Nat 8) (ch : Vector Character 10) :
    barmap { cfg with spareCycles := l } ch = barmap cfg ch := by
  unfold barmap
  rfl

/-! ### The host's operations -/

theorem cmdWrite_withLatency (v : Word) (s : State) (l : Vector Nat 8) :
    cmdWrite v (s.withLatency l) = (cmdWrite v s).withLatency l := by
  unfold cmdWrite
  cases decode v <;> rfl

theorem memWrite_withLatency (a : Index) (v : Word) (s : State) (l : Vector Nat 8) :
    memWrite a v (s.withLatency l) = (memWrite a v s).withLatency l := by
  unfold memWrite
  rw [State.withLatency_busy]
  cases s.busy with
  | true => rfl
  | false =>
    cases Reg.ofIndex a with
    | none => rfl
    | some r =>
      cases r with
      | cmd => exact cmdWrite_withLatency v s l
      | _ => rfl

theorem hostTurn_withLatency (s : State) (l : Vector Nat 8) :
    hostTurn (s.withLatency l) = (hostTurn s).withLatency l := by
  cases h : nextOp s with
  | none => rw [hostTurn_of_none h, hostTurn_of_none (s := s.withLatency l) h]
  | some op =>
    cases op with
    | wr a v =>
      rw [hostTurn_of_wr h, hostTurn_of_wr (s := s.withLatency l) h]
      exact memWrite_withLatency a v { s with pos := s.pos + 1 } l
    | rd a => rw [hostTurn_of_rd h, hostTurn_of_rd (s := s.withLatency l) h]; rfl
    | bnz a mask target => rw [hostTurn_of_bnz h, hostTurn_of_bnz (s := s.withLatency l) h]; rfl

/-! ### The engine's operations -/

theorem execAdjust_withLatency (s : State) (l : Vector Nat 8) :
    execAdjust (s.withLatency l) = mapNext (·.withLatency l) (execAdjust s) := by
  unfold execAdjust
  rw [prerequisite_withLatency]
  cases prerequisite .adjust s <;> rfl

theorem execCharmap_withLatency (s : State) (l : Vector Nat 8) :
    execCharmap (s.withLatency l) = mapNext (·.withLatency l) (execCharmap s) := by
  unfold execCharmap
  rw [prerequisite_withLatency, State.withLatency_cfg, State.withLatency_cw, State.withLatency_fcs,
    charmap_spareCycles]
  cases prerequisite .charmap s with
  | false => rfl
  | true => cases charmap s.cfg s.cw s.fcs <;> rfl

theorem execBarmap_withLatency (s : State) (l : Vector Nat 8) :
    execBarmap (s.withLatency l) = mapNext (·.withLatency l) (execBarmap s) := by
  unfold execBarmap
  rw [prerequisite_withLatency, State.withLatency_cfg, barmap_spareCycles]
  cases prerequisite .barmap s <;> rfl

theorem State.withResults_withLatency (s : State) (l : Vector Nat 8) (f : Fcs) (cs : Vector Codeword 10)
    (ch : Vector Character 10) : (s.withLatency l).withResults f cs ch = (s.withResults f cs ch).withLatency l := by
  unfold State.withResults
  rw [State.withLatency_cfg, barmap_spareCycles]
  rfl

theorem encodeFrom_withLatency (f : Fcs) (cs : Vector Codeword 10) (s : State) (l : Vector Nat 8) :
    encodeFrom f cs (s.withLatency l) = mapNext (·.withLatency l) (encodeFrom f cs s) := by
  unfold encodeFrom
  rw [State.withLatency_cfg, charmap_spareCycles]
  cases charmap s.cfg cs f with
  | none => rfl
  | some ch => exact congrArg succeed (State.withResults_withLatency s l f cs ch)

/-- A completion does the same whatever the latency (R180, R239). -/
theorem exec_withLatency (i : Instr) (s : State) (l : Vector Nat 8) :
    exec i (s.withLatency l) = mapNext (·.withLatency l) (exec i s) := by
  cases i with
  | nop => rfl
  | crc => rfl
  | decomp => rfl
  | clear => rfl
  | adjust => exact execAdjust_withLatency s l
  | charmap => exact execCharmap_withLatency s l
  | barmap => exact execBarmap_withLatency s l
  | encode => exact encodeFrom_withLatency _ _ s l

theorem engineTurn_withLatency (s : State) (l : Vector Nat 8) :
    engineTurn (s.withLatency l) = mapNext (·.withLatency l) (engineTurn s) := by
  unfold engineTurn
  rw [State.withLatency_busy, State.withLatency_pend]
  cases s.busy with
  | false => rfl
  | true =>
    cases s.pend with
    | none => rfl
    | some i => exact exec_withLatency i s l

/-! ### Steps -/

/-- A step does the same whatever the latency (R239). -/
theorem step_withLatency (s : State) (l : Vector Nat 8) :
    step (s.withLatency l) = mapNext (·.withLatency l) (step s) := by
  unfold step
  rw [nextAgent_withLatency]
  cases nextAgent s with
  | host => exact congrArg Host.Outcome.next (hostTurn_withLatency s.spendTurn l)
  | engine => exact engineTurn_withLatency s.spendTurn l
  | reset => rfl

/-- Settles O59: each agent's turn commutes with a change of the latency, and reads do not see the configuration. -/
theorem latencyIsUnobservable : Obligations.LatencyIsUnobservable :=
  ⟨one_le_latency, fun s l => ⟨step_withLatency s l, fun a => readValue_withLatency a s l⟩⟩

end Sys2Proof.Machine
end

section
/-! PROOF. What a step of the machine does to the block, said once (spec/00_scope.md R12): it leaves the registers, writes
`D`, accepts a command, rejects a write, completes the pending command, or resets. -/

namespace Sys2Proof

/-- A word that spells a command is that command's word (R84). -/
theorem eq_encode_of_decode {w : Word} {i : Instr} (h : decode w = .ok i) : w = encode i := by
  obtain ⟨hrsv, hop⟩ := decode_ok h
  have high : w.toNat / 16 % 2 ^ 28 = 0 := by
    simpa [rsvField, BitVec.extractLsb'_toNat, Nat.shiftRight_eq_div_pow] using congrArg BitVec.toNat hrsv
  have low : (opField w).toNat = w.toNat % 16 := by simp [opField, BitVec.extractLsb'_toNat]
  rw [encode, ← hop]
  apply BitVec.eq_of_toNat_eq
  rw [BitVec.toNat_setWidth, low]
  have := w.isLt
  omega

/-- The word of a command spells it (R84). -/
theorem decode_encode (i : Instr) : decode (encode i) = .ok i := by
  cases i <;> rfl

end Sys2Proof

namespace Sys2Proof.Machine

/-- The other fields of the state are none of the results. -/
theorem sameResults_update (s : State) (err : StatusCode) (drop busy : Bool) (pend : Option Instr) (script : List HostOp)
    (pos : Nat) (reads : List Word) (sched : List Agent) (draws : Nat) :
    SameResults s { s with
      err := err, drop := drop, busy := busy, pend := pend, script := script, pos := pos, reads := reads, sched := sched
      draws := draws } :=
  ⟨rfl, rfl, rfl, rfl, rfl, rfl, rfl, rfl, rfl, rfl, rfl⟩

/-- The registers of the block are the same in both states, all but `DROP`, and so is the configuration. -/
structure SameBlock (s t : State) : Prop where
  results : SameResults s t
  err     : t.err = s.err
  busy    : t.busy = s.busy
  pend    : t.pend = s.pend

/-- What the step from `s` to `t` does. -/
inductive StepEffect (s t : State) : Prop where
  /-- The host reads, or its write is dropped; or the agent has nothing to do. -/
  | quiet (same : SameBlock s t) (drop : t.drop = s.drop ∨ s.busy = true ∧ t.drop = true)
  /-- A write of a word of `D` (R54). -/
  | data (k : Fin 4) (v : Word) (writes : WritesNext s (Reg.data k).index v)
      (eq : t = dataWrite k v { s with pos := s.pos + 1, sched := s.sched.tail })
  /-- A write of a command's word to CMD (R185). -/
  | accept (i : Instr) (writes : WritesNext s Reg.cmd.index (encode i))
      (eq : t = State.accept { s with pos := s.pos + 1, sched := s.sched.tail } i)
  /-- A write that the idle block rejects (R202, R203). -/
  | reject (c : Status) (code : c = .illegalCmd ∨ c = .badWrite) (rejects : RejectsNext s)
      (eq : t = State.setErr { s with pos := s.pos + 1, sched := s.sched.tail } c)
  /-- The completion of the pending command (R180). -/
  | complete (i : Instr) (completes : CompletesNext s i) (ends : exec i s.spendTurn = .next t)
  /-- Reset (R230). -/
  | reset (agent : nextAgent s = .reset) (eq : t = resetBlock s.spendTurn)

/-- What the host's write does (R208). -/
theorem stepEffect_of_wr {s : State} {a : Index} {v : Word} (ha : nextAgent s = .host)
    (ho : nextOp s = some (.wr a v)) :
    StepEffect s (memWrite a v { s with pos := s.pos + 1, sched := s.sched.tail }) := by
  obtain ⟨hb, h⟩ | ⟨hb, k, rfl, h⟩ | ⟨hb, rfl, i, hd, h⟩ | ⟨hb, rfl, ⟨e, hd⟩, h⟩ | ⟨hb, hcmd, hdata, h⟩ :=
    memWrite_cases a v { s with pos := s.pos + 1, sched := s.sched.tail }
  · rw [h]
    exact .quiet ⟨sameResults_update .., rfl, rfl, rfl⟩ (.inr ⟨hb, rfl⟩)
  · exact .data k v ⟨ha, ho, hb⟩ h
  · obtain rfl := eq_encode_of_decode hd
    exact .accept i ⟨ha, ho, hb⟩ h
  · have noCommand : ∀ i, v ≠ encode i := by
      rintro i rfl
      rw [decode_encode] at hd
      cases hd
    have notData : ∀ k, Reg.cmd.index ≠ (Reg.data k).index := by decide
    exact .reject .illegalCmd (.inl rfl) ⟨_, v, ⟨ha, ho, hb⟩, notData, fun _ => noCommand⟩ h
  · exact .reject .badWrite (.inr rfl) ⟨a, v, ⟨ha, ho, hb⟩, hdata, fun h => absurd h hcmd⟩ h

/-- What a step that gives a next state does to the block, by the agent that moves. -/
theorem stepEffect_of_step {s t : State} (h : step s = .next t) : StepEffect s t := by
  have unchanged : SameBlock s s.spendTurn :=
    ⟨sameResults_update .., rfl, rfl, rfl⟩
  obtain ⟨ha, rfl⟩ | ⟨-, -, rfl⟩ | ⟨ha, hb, i, hp, hi⟩ | ⟨ha, rfl⟩ := step_cases h
  · obtain ⟨-, ht⟩ | ⟨a, v, ho, ht⟩ | ⟨a, p, ht, -⟩ := hostTurn_cases s.spendTurn
    · rw [ht]
      exact .quiet unchanged (.inl rfl)
    · rw [ht]
      exact stepEffect_of_wr ha ho
    · rw [ht]
      exact .quiet ⟨sameResults_update .., rfl, rfl, rfl⟩ (.inl rfl)
  · exact .quiet unchanged (.inl rfl)
  · exact .complete i ⟨ha, hb, hp⟩ hi
  · exact .reset ha rfl

end Sys2Proof.Machine
end

section
/-! PROOF. What each command leaves where it succeeds, and the two ways it fails, said once (spec/45_control.md R180). -/

namespace Sys2Proof.Machine

/-- `Performs s i u`: command `i` succeeds from `s` and leaves its effects in `u`, before `ERR`, `PEND` and `BUSY` are
written. -/
inductive Performs (s : State) : Instr → State → Prop where
  | nop : Performs s .nop s
  | crc : Performs s .crc { s with fcs := crc11 s.d, fcsV := true }
  | decomp : Performs s .decomp { s with cw := decomp s.d, cwV := true, adjV := false, chV := false, barV := false }
  | adjust (ready : s.cwV = true ∧ s.adjV = false ∧ s.fcsV = true) :
      Performs s .adjust { s with cw := adjust s.cw s.fcs, adjV := true }
  | charmap (ch : Vector Character 10) (ready : s.adjV = true) (found : charmap s.cfg s.cw s.fcs = some ch) :
      Performs s .charmap { s with ch := ch, chV := true }
  | barmap (ready : s.chV = true) : Performs s .barmap { s with bar := barmap s.cfg s.ch, barV := true }
  | encode (ch : Vector Character 10)
      (found : charmap s.cfg (adjust (decomp s.d) (crc11 s.d)) (crc11 s.d) = some ch) :
      Performs s .encode (s.withResults (crc11 s.d) (adjust (decomp s.d) (crc11 s.d)) ch)
  | clear :
      Performs s .clear { s with
        fcs := 0, cw := Vector.replicate 10 0, ch := Vector.replicate 10 0, bar := Vector.replicate 65 0
        fcsV := false, cwV := false, adjV := false, chV := false, barV := false }

/-- Command `i` finds a codeword outside the character ROM (R142, R182). -/
def LookupFails (i : Instr) (s : State) : Prop :=
  i = .charmap ∧ s.adjV = true ∧ charmap s.cfg s.cw s.fcs = none ∨
    i = .encode ∧ charmap s.cfg (adjust (decomp s.d) (crc11 s.d)) (crc11 s.d) = none

/-- How every completion ends: with its effects and `OK`, or with an error raised on the state it found. -/
theorem exec_cases (i : Instr) (s : State) :
    (∃ u, Performs s i u ∧ exec i s = succeed u) ∨
    (prerequisite i s = false ∧ exec i s = raiseError .sequence s) ∨
    (LookupFails i s ∧ exec i s = raiseError .lookupRange s) := by
  cases i with
  | nop => exact .inl ⟨_, .nop, rfl⟩
  | crc => exact .inl ⟨_, .crc, rfl⟩
  | decomp => exact .inl ⟨_, .decomp, rfl⟩
  | clear => exact .inl ⟨_, .clear, rfl⟩
  | adjust =>
    obtain ⟨hp, h⟩ | ⟨hp, h⟩ := execAdjust_cases s
    · exact .inl ⟨_, .adjust (by simpa [prerequisite, and_assoc] using hp), h⟩
    · exact .inr (.inl ⟨hp, h⟩)
  | charmap =>
    obtain ⟨hp, h⟩ | ⟨hp, hc, h⟩ | ⟨hp, ch, hc, h⟩ := execCharmap_cases s
    · exact .inr (.inl ⟨hp, h⟩)
    · exact .inr (.inr ⟨.inl ⟨rfl, hp, hc⟩, h⟩)
    · exact .inl ⟨_, .charmap ch hp hc, h⟩
  | barmap =>
    obtain ⟨hp, h⟩ | ⟨hp, h⟩ := execBarmap_cases s
    · exact .inl ⟨_, .barmap hp, h⟩
    · exact .inr (.inl ⟨hp, h⟩)
  | encode =>
    obtain ⟨hc, h⟩ | ⟨ch, hc, h⟩ := execEncode_cases s
    · exact .inr (.inr ⟨.inr ⟨rfl, hc⟩, h⟩)
    · exact .inl ⟨_, .encode ch hc, h⟩

/-- A completion leaves the results of the command, or those it found, and frees the engine. -/
theorem exec_next_cases {i : Instr} {s t : State} (h : exec i s = .next t) :
    (∃ u, (Performs s i u ∨ u = s) ∧ SameResults u t) ∧ t.busy = false ∧ t.pend = none := by
  obtain ⟨u, hu, he⟩ | ⟨-, he⟩ | ⟨-, he⟩ := exec_cases i s
  · rw [he] at h
    cases h
    exact ⟨⟨u, .inl hu, sameResults_update ..⟩, rfl, rfl⟩
  all_goals
    rw [he] at h
    cases h
    exact ⟨⟨s, .inr rfl, sameResults_update ..⟩, rfl, rfl⟩

/-- Every completion gives a next state. -/
theorem exec_next (i : Instr) (s : State) : ∃ t, exec i s = .next t := by
  obtain ⟨u, -, h⟩ | ⟨-, h⟩ | ⟨-, h⟩ := exec_cases i s <;> exact ⟨_, h⟩

end Sys2Proof.Machine
end

section
/-! PROOF. The adjusted codewords of any `D` are indices of the character ROM (spec/42_codeword.md R122, R126), so that
their characters exist (spec/43_character.md R144). -/

namespace Sys2Proof.Machine

/-- The raw codewords lie in the ranges of R122. -/
theorem decomp_ranges (d : Payload) :
    (decomp d)[0].toNat ≤ 661 ∧ (decomp d)[9].toNat ≤ 635 ∧
      ∀ (i : Nat) (h : i < 10), 1 ≤ i → i ≤ 8 → (decomp d)[i].toNat ≤ 1364 := by
  have cut : ∀ n, (BitVec.ofNat 13 n).toNat ≤ n := fun n => by
    rw [BitVec.toNat_ofNat]
    exact Nat.mod_le _ _
  have digit : ∀ n, (BitVec.ofNat 13 (n % 1365)).toNat ≤ 1364 := fun n =>
    (cut _).trans (Nat.le_of_lt_succ (Nat.mod_lt _ (by decide)))
  rw [decomp_eq]
  refine ⟨(cut _).trans ?_, (cut _).trans (Nat.le_of_lt_succ (Nat.mod_lt _ (by decide))), fun i _ h1 h8 => ?_⟩
  · simp only [Nat.div_div_eq_div_mul]
    have := d.isLt
    omega
  · interval_cases i <;> exact digit _

/-- After the two adjustments all ten codewords are below 1365 (R126). -/
theorem adjust_decomp_inRange (d : Payload) (f : Fcs) : codewordsInRange (adjust (decomp d) f) := by
  obtain ⟨h0, h9, hmid⟩ := decomp_ranges d
  obtain ⟨e9, e0, emid⟩ := adjust_entries (decomp d) f
  rintro ⟨i, hi⟩
  rw [Fin.getElem_fin]
  obtain rfl | rfl | ⟨h1, h8⟩ : i = 0 ∨ i = 9 ∨ (1 ≤ i ∧ i ≤ 8) := by omega
  · rw [e0]
    split
    · rw [BitVec.toNat_add, show (659 : Codeword).toNat = 659 from rfl]
      omega
    · omega
  · rw [e9, BitVec.toNat_mul, show (2 : Codeword).toNat = 2 from rfl]
    omega
  · rw [emid i hi h1 h8]
    exact Nat.lt_succ_of_le (hmid i hi h1 h8)

/-- The adjusted codewords of any `D` have characters. -/
theorem charmap_adjust_decomp_ne_none (cfg : Config) (d : Payload) (f : Fcs) :
    charmap cfg (adjust (decomp d) f) f ≠ none := by
  rw [charmap_of_inRange cfg f (adjust_decomp_inRange d f)]
  exact Option.some_ne_none _

/-- Where the valid bits tell the truth, no lookup fails (R144, R205). -/
theorem ResultsValid.not_lookupFails {s : State} (hr : ResultsValid s) (i : Instr) : ¬ LookupFails i s := by
  rintro (⟨-, hadj, hnone⟩ | ⟨-, hnone⟩)
  · obtain ⟨-, -, hcw⟩ := hr.adj hadj
    rw [hcw] at hnone
    exact charmap_adjust_decomp_ne_none _ _ _ hnone
  · exact charmap_adjust_decomp_ne_none _ _ _ hnone

end Sys2Proof.Machine
end

section
/-! PROOF. The invariant (spec/10_state.md R31, R42, spec/60_exceptions.md R201): it holds after reset, and each of its three
parts is kept by every step. -/

namespace Sys2Proof.Machine

/-! ### `BUSY` and `PEND` agree -/

theorem coherent_of_step {s t : State} (hc : Coherent s) (h : step s = .next t) : Coherent t := by
  cases stepEffect_of_step h with
  | quiet same _ => exact same.busy.trans (hc.trans (congrArg Option.isSome same.pend.symm))
  | data k v _ ht => subst ht; exact hc
  | accept i _ ht => subst ht; rfl
  | reject c _ _ ht => subst ht; exact hc
  | complete i _ hi =>
    obtain ⟨-, hb, hp⟩ := exec_next_cases hi
    rw [Coherent, hb, hp]
    rfl
  | reset _ ht => subst ht; rfl

/-- In the reset environment's turn a step is a reset (R230). -/
theorem step_of_reset {s : State} (h : nextAgent s = .reset) : step s = .next (resetBlock s.spendTurn) := by
  simp only [step, h]

/-- The fault of the engine's turn does not occur where `BUSY` and `PEND` agree. -/
theorem exists_step_of_coherent {s : State} (hc : Coherent s) : ∃ t, step s = .next t := by
  cases ha : nextAgent s with
  | host => exact ⟨_, step_of_host ha⟩
  | reset => exact ⟨_, step_of_reset ha⟩
  | engine =>
    cases hb : s.busy with
    | false => exact ⟨s.spendTurn, by simp [step, ha, engineTurn, hb]⟩
    | true =>
      have pending : s.pend.isSome = true := by rw [← hc, hb]
      obtain ⟨i, hp⟩ := Option.isSome_iff_exists.mp pending
      rw [step_of_completesNext ⟨ha, hb, hp⟩]
      exact exec_next i s.spendTurn

/-- Settles O27: a step exists, and it keeps the agreement of `BUSY` and `PEND`. -/
theorem coherentStatesAlwaysStep : Obligations.CoherentStatesAlwaysStep := by
  intro s hc
  obtain ⟨t, ht⟩ := exists_step_of_coherent hc
  exact ⟨t, ht, coherent_of_step hc ht⟩

/-! ### The valid bits tell the truth -/

/-- No valid bit, no claim. -/
theorem ResultsValid.of_none_valid {s : State} (hf : s.fcsV = false) (hw : s.cwV = false) (ha : s.adjV = false)
    (hc : s.chV = false) (hb : s.barV = false) : ResultsValid s := by
  constructor <;> simp [hf, hw, ha, hc, hb]

/-- A command that succeeds leaves valid bits that tell the truth. -/
theorem Performs.resultsValid {i : Instr} {s u : State} (h : Performs s i u) (hr : ResultsValid s) :
    ResultsValid u := by
  obtain ⟨hfcs, hraw, hadj, hch, hbar⟩ := hr
  cases h with
  | nop => exact ⟨hfcs, hraw, hadj, hch, hbar⟩
  | crc =>
    -- Adjusted codewords come with a valid FCS, which the command only writes again.
    have again : s.adjV = true → s.fcs = crc11 s.d := fun ha => hfcs (hadj ha).2.1
    refine ⟨fun _ => rfl, hraw, fun ha => ?_, fun hc => ?_, hbar⟩
    · obtain ⟨hw, -, hcw⟩ := hadj ha
      exact ⟨hw, rfl, again ha ▸ hcw⟩
    · obtain ⟨ha, hm⟩ := hch hc
      exact ⟨ha, again ha ▸ hm⟩
  | decomp => exact ⟨hfcs, fun _ _ => rfl, nofun, nofun, nofun⟩
  | adjust ready =>
    obtain ⟨hw, ha, hf⟩ := ready
    -- Before the adjustment no character and no bar is valid.
    have noCh : s.chV ≠ true := fun hc => Bool.false_ne_true (ha.symm.trans (hch hc).1)
    have noBar : s.barV ≠ true := fun hb => noCh (hbar hb).1
    refine ⟨hfcs, nofun, fun _ => ⟨hw, hf, ?_⟩, fun hc => absurd hc noCh, fun hb => absurd hb noBar⟩
    exact congrArg (Machine.adjust · s.fcs) (hraw hw ha)
  | charmap ch ready found =>
    refine ⟨hfcs, hraw, hadj, fun _ => ⟨ready, found⟩, fun hb => ⟨rfl, ?_⟩⟩
    -- Valid bars are those of valid characters, which the lookup only finds again.
    obtain ⟨hc, hbars⟩ := hbar hb
    obtain ⟨-, hm⟩ := hch hc
    have same : s.ch = ch := Option.some.inj (hm.symm.trans found)
    exact same ▸ hbars
  | barmap ready => exact ⟨hfcs, hraw, hadj, hch, fun _ => ⟨ready, rfl⟩⟩
  | encode ch found => exact ⟨fun _ => rfl, nofun, fun _ => ⟨rfl, rfl, rfl⟩, fun _ => ⟨rfl, found⟩, fun _ => ⟨rfl, rfl⟩⟩
  | clear => exact .of_none_valid rfl rfl rfl rfl rfl

theorem resultsValid_of_step {s t : State} (hr : ResultsValid s) (h : step s = .next t) : ResultsValid t := by
  cases stepEffect_of_step h with
  | quiet same _ => exact hr.congr same.results
  | data k v _ ht => subst ht; exact .of_none_valid rfl rfl rfl rfl rfl
  | accept i _ ht => subst ht; exact hr.congr (sameResults_update ..)
  | reject c _ _ ht => subst ht; exact hr.congr (sameResults_update ..)
  | complete i _ hi =>
    have hr' : ResultsValid s.spendTurn := hr.congr (sameResults_update ..)
    obtain ⟨⟨u, hu | rfl, same⟩, -⟩ := exec_next_cases hi
    · exact (hu.resultsValid hr').congr same
    · exact hr'.congr same
  | reset _ ht => subst ht; exact .of_none_valid rfl rfl rfl rfl rfl

/-! ### `ERR` holds one of four codes -/

/-- Where the valid bits tell the truth, a completion reports `OK` or `SEQUENCE` (R144, R205). -/
theorem exec_errReachable {i : Instr} {s t : State} (hr : ResultsValid s) (h : exec i s = .next t) :
    ErrReachable t := by
  obtain ⟨u, -, he⟩ | ⟨-, he⟩ | ⟨hfails, -⟩ := exec_cases i s
  · rw [he] at h
    cases h
    exact .inl rfl
  · rw [he] at h
    cases h
    exact .inr (.inr (.inl rfl))
  · exact absurd hfails (hr.not_lookupFails i)

theorem errReachable_of_step {s t : State} (hi : Inv s) (h : step s = .next t) : ErrReachable t := by
  obtain ⟨-, hr, herr⟩ := hi
  cases stepEffect_of_step h with
  | quiet same _ => rw [ErrReachable, same.err]; exact herr
  | data k v _ ht => subst ht; exact herr
  | accept i _ ht => subst ht; exact herr
  | reject c hc _ ht =>
    subst ht
    obtain rfl | rfl := hc
    · exact .inr (.inl rfl)
    · exact .inr (.inr (.inr rfl))
  | complete i _ hx =>
    exact exec_errReachable (s := s.spendTurn) (hr.congr (sameResults_update ..)) hx
  | reset _ ht => subst ht; exact .inl rfl

/-! ### The whole invariant -/

/-- Settles O56, part by part. -/
theorem everyStepKeepsInvariant : Obligations.EveryStepKeepsInvariant := fun _ _ hi h =>
  ⟨coherent_of_step hi.coherent h, resultsValid_of_step hi.results h, errReachable_of_step hi h⟩

/-- The invariant holds after reset, whatever was before (R230). -/
theorem inv_resetBlock (s : State) : Inv (resetBlock s) :=
  ⟨rfl, .of_none_valid rfl rfl rfl rfl rfl, .inl rfl⟩

/-- Settles O55: `State.reset` is a state that reset leaves. -/
theorem invariantHoldsAfterReset : Obligations.InvariantHoldsAfterReset := by
  refine ⟨inv_resetBlock State.reset, fun s t ha h => ?_⟩
  rw [step_of_reset ha] at h
  cases h
  exact inv_resetBlock s.spendTurn

/-- Settles O29, register by register. -/
theorem resetValues : Obligations.ResetValues := by
  have zero : ∀ (n w : Nat) (i : Fin n), (Vector.replicate n (0 : BitVec w))[i] = 0 := fun n w i => by simp
  exact ⟨rfl, rfl, zero 10 13, zero 10 13, zero 65 2, rfl, rfl, rfl, rfl, rfl, rfl, rfl, rfl, rfl, resetBlock_cfg⟩

end Sys2Proof.Machine
end

section
/-! PROOF. What writes each register and each valid bit (spec/10_state.md R20, R28, R29, R31): by the effect of the step, and
of a completion by the command. -/

namespace Sys2Proof.Machine

/-! ### Completions -/

/-- Of the commands, it is the pending one that completes. -/
theorem CompletesNext.iff {s : State} {i : Instr} (h : CompletesNext s i) (j : Instr) : CompletesNext s j ↔ i = j := by
  obtain ⟨ha, hb, hp⟩ := h
  simp [CompletesNext, ha, hb, hp]

/-- The commands whose completion writes each result register (R100, R120, R124, R140, R160, R182, R183). -/
theorem exec_writes {i : Instr} {s t : State} (h : exec i s = .next t) :
    t.d = s.d ∧ t.cfg = s.cfg ∧
    (t.fcs ≠ s.fcs → i = .crc ∨ i = .encode ∨ i = .clear) ∧
    (t.cw ≠ s.cw → i = .decomp ∨ i = .adjust ∨ i = .encode ∨ i = .clear) ∧
    (t.ch ≠ s.ch → i = .charmap ∨ i = .encode ∨ i = .clear) ∧
    (t.bar ≠ s.bar → i = .barmap ∨ i = .encode ∨ i = .clear) := by
  obtain ⟨⟨u, hu, same⟩, -⟩ := exec_next_cases h
  rw [same.d, same.cfg, same.fcs, same.cw, same.ch, same.bar]
  obtain hu | rfl := hu
  · cases hu <;> simp [State.withResults]
  · simp

/-- The commands whose completion sets each valid bit (R28). -/
theorem exec_sets {i : Instr} {s t : State} (h : exec i s = .next t) :
    (s.fcsV = false → t.fcsV = true → i = .crc ∨ i = .encode) ∧
    (s.cwV = false → t.cwV = true → i = .decomp ∨ i = .encode) ∧
    (s.adjV = false → t.adjV = true → i = .adjust ∨ i = .encode) ∧
    (s.chV = false → t.chV = true → i = .charmap ∨ i = .encode) ∧
    (s.barV = false → t.barV = true → i = .barmap ∨ i = .encode) := by
  obtain ⟨⟨u, hu, same⟩, -⟩ := exec_next_cases h
  rw [same.fcsV, same.cwV, same.adjV, same.chV, same.barV]
  obtain hu | rfl := hu
  · cases hu <;> simp +contextual
  · simp +contextual

/-- The commands whose completion clears each valid bit (R28). -/
theorem exec_clears {i : Instr} {s t : State} (h : exec i s = .next t) :
    (s.fcsV = true ∧ t.fcsV = false ∨ s.cwV = true ∧ t.cwV = false → i = .clear) ∧
    (s.adjV = true ∧ t.adjV = false ∨ s.chV = true ∧ t.chV = false ∨ s.barV = true ∧ t.barV = false →
      i = .decomp ∨ i = .clear) := by
  obtain ⟨⟨u, hu, same⟩, -⟩ := exec_next_cases h
  rw [same.fcsV, same.cwV, same.adjV, same.chV, same.barV]
  obtain hu | rfl := hu
  · cases hu <;> simp [State.withResults]
  · simp

/-! ### Steps -/

/-- Settles O57, by the effect of the step: a completion by its command, every other effect keeps the valid bits or is one
of the listed causes. -/
theorem validBitsChangeOnlyAsListed : Obligations.ValidBitsChangeOnlyAsListed := by
  intro s t h
  cases stepEffect_of_step h with
  | quiet same _ =>
    obtain ⟨-, -, -, -, -, hfcs, hcw, hadj, hch, hbar, -⟩ := same.results
    simp +contextual [hfcs, hcw, hadj, hch, hbar]
  | data k v writes ht =>
    have listed : DataWriteNext s := ⟨k, v, writes⟩
    simp [ht, listed]
  | accept i _ ht => simp +contextual [ht]
  | reject c _ _ ht => simp +contextual [ht]
  | complete i completes ends =>
    obtain ⟨hfcs, hcw, hadj, hch, hbar⟩ := exec_sets ends
    obtain ⟨early, late⟩ := exec_clears ends
    simp only [completes.iff]
    exact ⟨hfcs, hcw, hadj, hch, hbar, fun h => .inr (.inl (early h)),
      fun h => (late h).imp_right fun hclear => .inr (.inl hclear)⟩
  | reset agent ht => simp [ht, agent]

/-- Settles O58, by the effect of the step in the same way. -/
theorem registersWrittenOnlyAsListed : Obligations.RegistersWrittenOnlyAsListed := by
  intro s t h
  cases stepEffect_of_step h with
  | quiet same _ =>
    obtain ⟨⟨hd, hfcs, hcw, hch, hbar, -, -, -, -, -, hcfg⟩, herr, hbusy, hpend⟩ := same
    simp [hd, hfcs, hcw, hch, hbar, hcfg, herr, hbusy, hpend]
  | data k v writes ht =>
    have listed : DataWriteNext s := ⟨k, v, writes⟩
    simp [ht, listed]
  | accept i writes ht =>
    have listed : AcceptsNext s := ⟨i, writes⟩
    simp [ht, listed]
  | reject c _ rejects ht => simp [ht, rejects]
  | complete i completes ends =>
    obtain ⟨hd, hcfg, hfcs, hcw, hch, hbar⟩ := exec_writes ends
    have noReset : nextAgent s ≠ .reset := by simp [completes.1]
    simp only [completes.iff, noReset, or_false]
    exact ⟨fun hne => absurd hd hne, hfcs, hcw, hch, hbar, fun _ => .inl ⟨i, rfl⟩, fun _ => .inr ⟨i, rfl⟩, hcfg⟩
  | reset agent ht => simp [ht, agent]

end Sys2Proof.Machine
end

section
/-! PROOF. What the host reads at each word index, and that the idle block rejects a write of a read-only or reserved index
(spec/10_state.md R32 to R40, spec/20_memory.md R52, spec/60_exceptions.md R203). -/

namespace Sys2Proof

theorem Reg.data_index_toNat (k : Fin 4) : (Reg.data k).index.toNat = 4 + k.val := by
  revert k
  decide

/-- The ranges of reserved indices (R40). -/
theorem Reg.ofIndex_eq_none : ∀ a : Index,
    (a.toNat = 0x03 ∨ (0x09 ≤ a.toNat ∧ a.toNat ≤ 0x0F) ∨ (0x1A ≤ a.toNat ∧ a.toNat ≤ 0x1F) ∨
      (0x2A ≤ a.toNat ∧ a.toNat ≤ 0x2F) ∨ 0x35 ≤ a.toNat) → Reg.ofIndex a = none := by
  decide

end Sys2Proof

namespace Sys2Proof.Machine

/-- The idle block rejects a write of every index but those of CMD and DATA0 to DATA3 (R203). -/
theorem memWrite_badWrite {s : State} {a : Index} (v : Word) (hb : s.busy = false) (hcmd : a.toNat ≠ 1)
    (hdata : ¬ (4 ≤ a.toNat ∧ a.toNat ≤ 7)) : memWrite a v s = { s with err := 4 } := by
  have notCmd : a ≠ Reg.cmd.index := by
    rintro rfl
    exact hcmd rfl
  obtain ⟨hb', -⟩ | ⟨-, k, rfl, -⟩ | ⟨-, ha, -⟩ | ⟨-, ha, -⟩ | ⟨-, -, -, h⟩ := memWrite_cases a v s
  · exact absurd (hb'.symm.trans hb) Bool.noConfusion
  · rw [Reg.data_index_toNat] at hdata
    omega
  · exact absurd ha notCmd
  · exact absurd ha notCmd
  · exact h

/-! ### ID and the reserved indices -/

/-- Settles O6. -/
theorem idRegisterIsConstant : Obligations.IdRegisterIsConstant := fun s =>
  ⟨rfl, fun v hb => memWrite_badWrite v hb (by decide) (by decide)⟩

/-- Settles O7: no register stands at these indices. -/
theorem reservedIndicesReadZeroRejectWrites : Obligations.ReservedIndicesReadZeroRejectWrites := by
  intro s a ha
  refine ⟨?_, fun v hb => memWrite_badWrite v hb (by omega) (by omega)⟩
  simp only [readValue, Reg.ofIndex_eq_none a ha]

/-! ### STATUS -/

/-- The STATUS word bit by bit; above bit 12 it is 0, as `mid` has nine bits (R33). -/
theorem statusWord_getLsbD (mid : BitVec 9) (drop busy : Bool) (n : Nat) (hn : n < 32) :
    (statusWord mid drop busy).getLsbD n =
      if n = 0 then busy else if n = 1 then drop else if n < 4 then false else mid.getLsbD (n - 4) := by
  simp only [statusWord, BitVec.getLsbD_or, BitVec.getLsbD_shiftLeft, BitVec.getLsbD_setWidth, BitVec.getLsbD_ofBool, hn]
  obtain rfl | rfl | hlow | hhigh : n = 0 ∨ n = 1 ∨ (2 ≤ n ∧ n < 4) ∨ 4 ≤ n := by omega
  · simp
  · simp
  · have : n ≠ 0 ∧ n ≠ 1 ∧ n - 1 ≠ 0 ∧ n < 4 := by omega
    simp [this]
  · have : n ≠ 0 ∧ n ≠ 1 ∧ n - 1 ≠ 0 ∧ ¬ n < 4 ∧ n - 4 < 32 := by omega
    simp [this]

/-- STATUS bits 12:4 of an idle block, bit by bit (R33). -/
theorem statusMid_getLsbD (s : State) (n : Nat) (hn : n < 9) :
    (statusMid s).getLsbD n =
      if n < 4 then s.err.getLsbD n else if n = 4 then s.fcsV else if n = 5 then s.cwV else if n = 6 then s.adjV
      else if n = 7 then s.chV else s.barV := by
  simp only [statusMid, BitVec.getLsbD_or, BitVec.getLsbD_shiftLeft, BitVec.getLsbD_setWidth, BitVec.getLsbD_ofBool]
  interval_cases n <;> simp

/-- Bits 3:2 and 31:13 of the STATUS word are 0 (R33). -/
theorem statusWord_reserved (mid : BitVec 9) (drop busy : Bool) :
    (statusWord mid drop busy).extractLsb' 2 2 = 0 ∧ (statusWord mid drop busy).extractLsb' 13 19 = 0 := by
  constructor <;> apply BitVec.eq_of_getLsbD_eq <;> intro n hn <;>
    rw [BitVec.getLsbD_extractLsb', statusWord_getLsbD _ _ _ _ (by omega), if_neg (by omega), if_neg (by omega)]
  · rw [if_pos (by omega), Bool.and_false]
    exact BitVec.getLsbD_zero.symm
  · rw [if_neg (by omega), BitVec.getLsbD_of_ge mid _ (by omega), Bool.and_false]
    exact BitVec.getLsbD_zero.symm

/-- Bit `4 + n` of the STATUS word is bit `n` of `mid` (R33). -/
theorem statusWord_getLsbD_mid (mid : BitVec 9) (drop busy : Bool) (n : Nat) (hn : n < 9) :
    (statusWord mid drop busy).getLsbD (4 + n) = mid.getLsbD n := by
  rw [statusWord_getLsbD _ _ _ _ (by omega), if_neg (by omega), if_neg (by omega), if_neg (by omega),
    Nat.add_sub_cancel_left]

/-- A read of STATUS (R52). -/
theorem readValue_status (s : State) : readValue 0x02 s =
    statusWord (if s.busy then (Config.draw s.draws).extractLsb' 0 9 else statusMid s) s.drop s.busy := rfl

/-- Bit `4 + n` of STATUS of an idle block (R33). -/
theorem readValue_status_getLsbD_idle {s : State} (hb : s.busy = false) (n : Nat) (hn : n < 9) :
    (readValue 0x02 s).getLsbD (4 + n) = (statusMid s).getLsbD n := by
  rw [readValue_status, statusWord_getLsbD_mid _ _ _ n hn, if_neg (by simp [hb])]

/-- Settles O8, field by field of the STATUS word. -/
theorem statusRegisterFields : Obligations.StatusRegisterFields := by
  refine ⟨by decide, fun s => ⟨?busy, ?drop, (statusWord_reserved _ _ _).1, (statusWord_reserved _ _ _).2,
    fun hb => ⟨?err, ?valid⟩, fun hb => ?running, fun v hb => memWrite_badWrite v hb (by decide) (by decide)⟩⟩
  case busy => exact statusWord_getLsbD _ _ _ 0 (by decide)
  case drop => exact statusWord_getLsbD _ _ _ 1 (by decide)
  case err =>
    apply BitVec.eq_of_getLsbD_eq
    intro n hn
    rw [BitVec.getLsbD_extractLsb', readValue_status_getLsbD_idle hb n (by omega), statusMid_getLsbD s n (by omega),
      if_pos hn]
    simp [hn]
  case valid =>
    have bit : ∀ n, n < 9 → (readValue 0x02 s).getLsbD (4 + n) = _ := fun n hn =>
      (readValue_status_getLsbD_idle hb n hn).trans (statusMid_getLsbD s n hn)
    exact ⟨bit 4 (by decide), bit 5 (by decide), bit 6 (by decide), bit 7 (by decide), bit 8 (by decide)⟩
  case running =>
    apply BitVec.eq_of_getLsbD_eq
    intro n hn
    rw [BitVec.getLsbD_extractLsb', readValue_status, statusWord_getLsbD_mid _ _ _ n hn, if_pos hb]
    simp [hn]

end Sys2Proof.Machine
end

section
/-! PROOF. The result registers, the bars and `D` as the host reads them (spec/10_state.md R35 to R39). -/

namespace Sys2Proof.Machine

/-! ### FCS, CW0 to CW9, CH0 to CH9 -/

/-- While `BUSY = 1` a read of a result register is a free value (R52). -/
theorem readValue_result_busy {s : State} {r : Reg} (hb : s.busy = true)
    (hr : r = .fcs ∨ (∃ i, r = .cw i) ∨ (∃ i, r = .ch i) ∨ ∃ j, r = .bar j) :
    readValue r.index s = Config.draw s.draws := by
  obtain rfl | ⟨i, rfl⟩ | ⟨i, rfl⟩ | ⟨j, rfl⟩ := hr <;> simp [readValue, hb]

/-- The indices of FCS, of the codewords and of the characters are those of R36, R37, R38. -/
theorem result_index : ∀ a : Index,
    a = 0x08 ∨ (0x10 ≤ a.toNat ∧ a.toNat ≤ 0x19) ∨ (0x20 ≤ a.toNat ∧ a.toNat ≤ 0x29) →
      a = Reg.fcs.index ∨ (∃ i, a = (Reg.cw i).index) ∨ ∃ i, a = (Reg.ch i).index := by
  decide

/-- Reads of the result registers of an idle block (R52). -/
theorem readValue_fcs_idle {s : State} (hb : s.busy = false) : readValue Reg.fcs.index s = s.fcs.setWidth 32 := by
  simp [readValue, hb]

theorem readValue_cw_idle {s : State} (hb : s.busy = false) (i : Fin 10) :
    readValue (Reg.cw i).index s = s.cw[i].setWidth 32 := by
  simp [readValue, hb]

theorem readValue_ch_idle {s : State} (hb : s.busy = false) (i : Fin 10) :
    readValue (Reg.ch i).index s = s.ch[i].setWidth 32 := by
  simp [readValue, hb]

theorem readValue_bar_idle {s : State} (hb : s.busy = false) (j : Fin 5) :
    readValue (Reg.bar j).index s = barWord s.bar j := by
  simp [readValue, hb]

/-- Settles O9, register by register. -/
theorem resultRegistersReadBack : Obligations.ResultRegistersReadBack := by
  have extended : ∀ {w : Nat} {x : BitVec w} {r : Word}, w ≤ 32 → r = x.setWidth 32 → r.toNat = x.toNat := by
    rintro w x _ hw rfl
    exact BitVec.toNat_setWidth_of_le hw
  refine fun s => ⟨fun hb => ⟨?fcs, fun i => ?cw, fun i => ?ch, fun a v ha => ?write⟩, fun hb a ha => ?busy⟩
  case fcs => exact extended (by decide) (readValue_fcs_idle hb)
  case cw => exact extended (by decide) (readValue_cw_idle hb i)
  case ch => exact extended (by decide) (readValue_ch_idle hb i)
  case write =>
    obtain rfl | ha := ha
    · exact memWrite_badWrite v hb (by decide) (by decide)
    · exact memWrite_badWrite v hb (by omega) (by omega)
  case busy =>
    obtain rfl | ⟨i, rfl⟩ | ⟨i, rfl⟩ := result_index a ha
    · exact readValue_result_busy hb (.inl rfl)
    · exact readValue_result_busy hb (.inr (.inl ⟨i, rfl⟩))
    · exact readValue_result_busy hb (.inr (.inr (.inl ⟨i, rfl⟩)))

/-! ### BAR0 to BAR4 -/

/-- Bar `m` of the word BARj, as a number: bar `16j + m`, or 0 where there is none (R39). -/
def barDigit (bar : Vector Bar 65) (j m : Nat) : Nat := if h : 16 * j + m < 65 then (bar[16 * j + m]).toNat else 0

theorem barDigit_lt (bar : Vector Bar 65) (j m : Nat) : barDigit bar j m < 4 := by
  unfold barDigit
  split
  · exact BitVec.isLt _
  · decide

/-- `barSum` is the number whose base-4 digits are the bars (R52). -/
theorem barSum_succ (bar : Vector Bar 65) (j m : Nat) :
    barSum bar j (m + 1) = barSum bar j m + 4 ^ m * barDigit bar j m := by
  unfold barDigit
  rw [barSum]
  split
  · rw [Nat.shiftLeft_eq, pow_mul, Nat.mul_comm]
    norm_num
  · rfl

/-- Digit `m` of the first `n` bars is bar `m`. -/
theorem barSum_digit (bar : Vector Bar 65) (j m n : Nat) (h : m < n) :
    barSum bar j n / 4 ^ m % 4 = barDigit bar j m := by
  have pos : 0 < 4 ^ m := by positivity
  induction n, h using Nat.le_induction with
  | base =>
    rw [barSum_succ, Nat.add_mul_div_left _ _ pos, Nat.div_eq_of_lt (barSum_lt bar j m), Nat.zero_add,
      Nat.mod_eq_of_lt (barDigit_lt bar j m)]
  | succ n h ih =>
    have split : 4 ^ n = 4 ^ m * (4 * 4 ^ (n - m - 1)) := by
      rw [← pow_succ', ← pow_add]
      congr 1
      omega
    rw [barSum_succ, split, Nat.mul_assoc, Nat.add_mul_div_left _ _ pos, Nat.mul_assoc, Nat.add_mul_mod_self_left, ih]

/-- Bits `2m+1 : 2m` of BARj are bar `16j + m` (R39). -/
theorem barWord_extract (bar : Vector Bar 65) (j : Fin 5) (m : Nat) (hm : m < 16) :
    ((barWord bar j).extractLsb' (2 * m) 2).toNat = barDigit bar j m := by
  have fits : barSum bar j 16 < 2 ^ 32 := barSum_lt bar j 16
  rw [BitVec.extractLsb'_toNat, barWord, BitVec.toNat_ofNat, Nat.mod_eq_of_lt fits,
    Nat.shiftRight_eq_div_pow, pow_mul]
  exact barSum_digit bar j m 16 hm

/-- BAR4 holds bar 64 alone (R39). -/
theorem barWord_four (bar : Vector Bar 65) : barWord bar 4 = BitVec.ofNat 32 bar[64].toNat := by
  simp [barWord, barSum]

/-- Settles O10: a bar is a base-4 digit of its word. -/
theorem barRegistersPackBars : Obligations.BarRegistersPackBars := by
  refine fun s => ⟨fun hb => ⟨fun k => ?bars, ?last, fun j v => ?write⟩, fun hb j => ?busy⟩
  case bars =>
    have word : readValue (BitVec.ofNat 6 (0x30 + k.val / 16)) s = barWord s.bar ⟨k.val / 16, by omega⟩ :=
      readValue_bar_idle hb ⟨k.val / 16, by omega⟩
    have place : 16 * (k.val / 16) + k.val % 16 = k.val := Nat.div_add_mod ..
    apply BitVec.eq_of_toNat_eq
    rw [word, barWord_extract _ _ _ (Nat.mod_lt _ (by decide)), barDigit]
    simp [place]
  case last =>
    have word : readValue 0x34 s = BitVec.ofNat 32 s.bar[64].toNat :=
      (readValue_bar_idle hb 4).trans (barWord_four s.bar)
    have small : s.bar[64].toNat < 4 := s.bar[64].isLt
    apply BitVec.eq_of_toNat_eq
    rw [word, BitVec.extractLsb'_toNat, BitVec.toNat_ofNat, Nat.shiftRight_eq_div_pow,
      Nat.div_eq_of_lt ((Nat.mod_le _ _).trans_lt small)]
    rfl
  case write =>
    have index : (BitVec.ofNat 6 (0x30 + j.val)).toNat = 0x30 + j.val := by
      rw [BitVec.toNat_ofNat]
      omega
    exact memWrite_badWrite v hb (by omega) (by omega)
  case busy => exact readValue_result_busy (r := .bar j) hb (.inr (.inr (.inr ⟨j, rfl⟩)))

/-! ### DATA0 to DATA3 -/

/-- A read of a word of `D`, at every time (R52, R60). -/
theorem readValue_data (k : Fin 4) (s : State) : readValue (Reg.data k).index s = dataWord s.d k := by
  simp only [readValue, Reg.ofIndex_index]

/-- Settles O11: bit `n` of `D` is bit `n mod 32` of word `n div 32`. -/
theorem dataRegistersReadD : Obligations.DataRegistersReadD := by
  refine fun s => ⟨fun n => ?_, ?_⟩
  · rw [show readValue (BitVec.ofNat 6 (0x04 + n.val / 32)) s = dataWord s.d ⟨n.val / 32, by omega⟩ from
        readValue_data ⟨n.val / 32, by omega⟩ s,
      dataWord_getLsbD _ _ _ (Nat.mod_lt _ (by decide)), Nat.div_add_mod]
  · rw [show readValue 0x07 s = dataWord s.d 3 from readValue_data 3 s]
    apply BitVec.eq_of_getLsbD_eq
    intro i hi
    rw [BitVec.getLsbD_extractLsb', dataWord_getLsbD _ _ _ (by omega), BitVec.getLsbD_of_ge _ _ (by simp; omega),
      Bool.and_false]
    exact BitVec.getLsbD_zero.symm

end Sys2Proof.Machine
end

section
/-! PROOF. An accepted DATA write, what a read leaves alone and what it does not show, and the inputs of a pending command
(spec/20_memory.md R52 to R54, R57, R64, R65, R71). -/

namespace Sys2Proof.Machine

/-! ### DATA writes -/

/-- A write of a word of `D` to the idle block is accepted (R54, R208). -/
theorem memWrite_data {s : State} (hb : s.busy = false) (k : Fin 4) (v : Word) :
    memWrite (Reg.data k).index v s = dataWrite k v s := by
  simp [memWrite, hb]

/-- Settles O12: the new `D` is `putDataWord`, whose bits are known one by one. -/
theorem dataWriteReplacesWordAndInvalidates : Obligations.DataWriteReplacesWordAndInvalidates :=
  fun s k v hb => ⟨putDataWord s.d k v, memWrite_data hb k v, putDataWord_getLsbD s.d k v⟩

/-! ### Reads -/

/-- With `BUSY = 0` no read is a free value, so none depends on how many were drawn, nor on the observation (R52). -/
theorem readValue_idle_congr {s : State} (hb : s.busy = false) (reads : List Word) (draws : Nat) (a : Index) :
    readValue a { s with reads := reads, draws := draws } = readValue a s := by
  unfold readValue
  cases Reg.ofIndex a with
  | none => rfl
  | some r =>
    cases r with
    | id | cmd | data => rfl
    | status => simp only [hb]; rfl
    | fcs | cw | ch | bar => simp only [hb, Bool.false_eq_true, if_false]

/-- Settles O19. -/
theorem readHasNoSideEffect : Obligations.ReadHasNoSideEffect := fun s _ =>
  ⟨sameResults_update s .., rfl, rfl, rfl, rfl, rfl, fun hb => readValue_idle_congr hb _ _⟩

/-- With `BUSY = 1` a read shows `D`, `DROP` and the free value alone (R52, log entry 3). -/
theorem readValue_busy_congr {s t : State} (hs : s.busy = true) (ht : t.busy = true) (hd : s.d = t.d)
    (hdrop : s.drop = t.drop) (hdraws : s.draws = t.draws) (a : Index) : readValue a s = readValue a t := by
  unfold readValue
  cases Reg.ofIndex a with
  | none => rfl
  | some r =>
    cases r with
    | id | cmd => rfl
    | data k => simp only [hd]
    | status => simp only [hs, ht, hdrop, hdraws, if_true]
    | fcs | cw | ch | bar => simp only [hs, ht, hdraws, if_true]

/-- Settles O20; `readValue` names neither `PEND` nor the configuration. -/
theorem readsHideResultsAndConfiguration : Obligations.ReadsHideResultsAndConfiguration :=
  ⟨fun _ _ => readValue_busy_congr, fun _ _ _ _ => rfl⟩

/-! ### The inputs of a pending command -/

/-- Settles O25: of the effects a step can have, those that change an input are a write the idle block sees, a completion and
a reset. -/
theorem inputsHeldWhilePending : Obligations.InputsHeldWhilePending := by
  intro s t h hb ha
  have noWrite : ∀ a v, ¬ WritesNext s a v := by
    rintro a v ⟨-, -, idle⟩
    exact absurd (hb.symm.trans idle) Bool.noConfusion
  cases stepEffect_of_step h with
  | quiet same _ => exact ⟨same.results, same.err, same.busy.trans hb, same.pend⟩
  | data k v writes _ => exact absurd writes (noWrite _ _)
  | accept i writes _ => exact absurd writes (noWrite _ _)
  | reject c _ rejects _ =>
    obtain ⟨a, v, writes, -, -⟩ := rejects
    exact absurd writes (noWrite a v)
  | complete i completes _ => exact absurd (ha.symm.trans completes.1) Agent.noConfusion
  | reset agent _ => exact absurd (ha.symm.trans agent) Agent.noConfusion

end Sys2Proof.Machine
end

section
/-! PROOF. The command words (spec/30_encoding.md R80 to R85): which words spell a command, and why the others spell none. -/

namespace Sys2Proof

/-- A word with a reserved bit set spells no command, whatever its opcode is (R82). -/
theorem decode_of_rsvField_ne_zero {w : Word} (h : rsvField w ≠ 0) : decode w = .error .reservedBits := by
  simp only [decode, if_pos h]

/-- The opcodes 8 to 15 are reserved (R83). -/
theorem instrOfOp_eq_none : ∀ op : BitVec 4, 8 ≤ op.toNat → instrOfOp op = none := by
  decide

/-- A word with no reserved bit set and a reserved opcode spells no command (R83). -/
theorem decode_of_reservedOpcode {w : Word} (hrsv : rsvField w = 0) (hop : 8 ≤ (opField w).toNat) :
    decode w = .error .reservedOpcode := by
  simp only [decode, hrsv, ne_eq, not_true_eq_false, if_false, instrOfOp_eq_none _ hop]

/-- The zero-extension of an opcode has no reserved bit set, and that opcode (R80). -/
theorem fields_setWidth : ∀ op : BitVec 4, rsvField (op.setWidth 32) = 0 ∧ opField (op.setWidth 32) = op := by
  decide

/-- The word of a command is its opcode, one of the numbers below 8 (R81). -/
theorem encode_toNat_lt (i : Instr) : (encode i).toNat < 8 := by
  cases i <;> decide

/-- Each number below 8 is a command's word (R81). -/
theorem exists_encode_toNat_eq {n : Nat} (h : n < 8) : ∃ i, (encode i).toNat = n := by
  match n, h with
  | 0, _ => exact ⟨.nop, rfl⟩
  | 1, _ => exact ⟨.crc, rfl⟩
  | 2, _ => exact ⟨.decomp, rfl⟩
  | 3, _ => exact ⟨.adjust, rfl⟩
  | 4, _ => exact ⟨.charmap, rfl⟩
  | 5, _ => exact ⟨.barmap, rfl⟩
  | 6, _ => exact ⟨.encode, rfl⟩
  | 7, _ => exact ⟨.clear, rfl⟩

/-- A word spells a command exactly when its value is below 8 (R84). -/
theorem exists_decode_ok_iff (w : Word) : (∃ i, decode w = .ok i) ↔ w.toNat < 8 := by
  constructor
  · rintro ⟨i, h⟩
    rw [eq_encode_of_decode h]
    exact encode_toNat_lt i
  · intro h
    obtain ⟨i, hi⟩ := exists_encode_toNat_eq h
    rw [← BitVec.eq_of_toNat_eq hi]
    exact ⟨i, decode_encode i⟩

/-- Settles O2: a word that spells a command is that command's word, and those are the numbers below 8. -/
theorem decodeInvertsEncode : Obligations.DecodeInvertsEncode :=
  ⟨fun i _ => decode_encode i, fun _ _ => eq_encode_of_decode, exists_decode_ok_iff⟩

/-- Settles O1: the eight words are those of the eight commands, and the two kinds of illegal word have their own errors. -/
theorem commandWordsDecode : Obligations.CommandWordsDecode := by
  refine ⟨decode_encode .nop, decode_encode .crc, decode_encode .decomp, decode_encode .adjust, decode_encode .charmap,
    decode_encode .barmap, decode_encode .encode, decode_encode .clear, fun op hop => ?opcode, fun w hrsv => ?bits⟩
  case opcode =>
    obtain ⟨rsv, eq⟩ := fields_setWidth op
    exact ⟨_, decode_of_reservedOpcode rsv (by rw [eq]; exact hop)⟩
  case bits => exact ⟨_, decode_of_rsvField_ne_zero hrsv⟩

end Sys2Proof
end

section
/-! PROOF. The 40-bit listing words of bus transactions (spec/30_encoding.md R90), by their four fields. -/

namespace Sys2Proof

/-- The four fields of a listing word: bit 39 is 0, bit 38 the direction, then the word index and the write data (R90). -/
structure ListingFields (w : BitVec 40) (dir : Bool) (a : Index) (v : Word) : Prop where
  top   : w.getLsbD 39 = false
  dir   : w.getLsbD 38 = dir
  index : w.extractLsb' 32 6 = a
  data  : w.extractLsb' 0 32 = v

/-- The fields cover all 40 bits, so they determine the word. -/
theorem ListingFields.unique {w w' : BitVec 40} {dir : Bool} {a : Index} {v : Word} (h : ListingFields w dir a v)
    (h' : ListingFields w' dir a v) : w = w' := by
  have index := congrArg BitVec.getLsbD (h.index.trans h'.index.symm)
  have data := congrArg BitVec.getLsbD (h.data.trans h'.data.symm)
  apply BitVec.eq_of_getLsbD_eq
  intro i hi
  obtain hi | hi | rfl | rfl : i < 32 ∨ (32 ≤ i ∧ i < 38) ∨ i = 38 ∨ i = 39 := by omega
  · simpa [hi] using congrFun data i
  · have := congrFun index (i - 32)
    rw [BitVec.getLsbD_extractLsb', BitVec.getLsbD_extractLsb', Nat.add_sub_cancel' hi.1] at this
    simpa [show i - 32 < 6 by omega] using this
  · exact h.dir.trans h'.dir.symm
  · exact h.top.trans h'.top.symm

/-- Where the fields stand in the word of a write. -/
theorem encodeTransaction_write_fields (a : Index) (v : Word) :
    ListingFields (encodeTransaction (.write a v)) true a v where
  top := by simp [encodeTransaction]
  dir := by simp [encodeTransaction]
  index := by
    apply BitVec.eq_of_getLsbD_eq
    intro i hi
    have notData : v.getLsbD (32 + i) = false := BitVec.getLsbD_of_ge v _ (by omega)
    simp only [encodeTransaction, BitVec.getLsbD_extractLsb', BitVec.getLsbD_or, BitVec.getLsbD_shiftLeft,
      BitVec.getLsbD_setWidth, notData]
    simp [hi, show 32 + i < 40 by omega, show 32 + i < 38 by omega, show i < 40 by omega]
  data := by
    apply BitVec.eq_of_getLsbD_eq
    intro i hi
    simp only [encodeTransaction, BitVec.getLsbD_extractLsb', BitVec.getLsbD_or, BitVec.getLsbD_shiftLeft,
      BitVec.getLsbD_setWidth]
    simp [hi, show i < 40 by omega, show i < 38 by omega]

/-- Where the fields stand in the word of a read. -/
theorem encodeTransaction_read_fields (a : Index) : ListingFields (encodeTransaction (.read a)) false a 0 where
  top := by simp [encodeTransaction]
  dir := by simp [encodeTransaction]
  index := by
    apply BitVec.eq_of_getLsbD_eq
    intro i hi
    simp [encodeTransaction, hi, show 32 + i < 40 by omega]
  data := by
    apply BitVec.eq_of_getLsbD_eq
    intro i hi
    simp [encodeTransaction, hi]

/-- The words that list a write. -/
theorem decodeTransaction_eq_write_iff (w : BitVec 40) (a : Index) (v : Word) :
    decodeTransaction w = some (.write a v) ↔ ListingFields w true a v := by
  constructor
  · intro h
    unfold decodeTransaction at h
    split at h
    · cases h
    · next top =>
      split at h
      · next dir => cases h; exact ⟨by simpa using top, dir, rfl, rfl⟩
      · split at h <;> cases h
  · rintro ⟨top, dir, rfl, rfl⟩
    simp only [decodeTransaction, top, dir, Bool.false_eq_true, if_false, if_true]

/-- The words that list a read: those whose data field is 0 (log entry 15). -/
theorem decodeTransaction_eq_read_iff (w : BitVec 40) (a : Index) :
    decodeTransaction w = some (.read a) ↔ ListingFields w false a 0 := by
  constructor
  · intro h
    unfold decodeTransaction at h
    split at h
    · cases h
    · next top =>
      split at h
      · cases h
      · next dir =>
        split at h
        · next data => cases h; exact ⟨by simpa using top, by simpa using dir, rfl, data⟩
        · cases h
  · rintro ⟨top, dir, rfl, data⟩
    simp only [decodeTransaction, top, dir, data, Bool.false_eq_true, if_false, if_true]

/-- A word lists a transaction exactly when it is the transaction's word. -/
theorem decodeTransaction_eq_some_iff (w : BitVec 40) (t : Transaction) :
    decodeTransaction w = some t ↔ w = encodeTransaction t := by
  cases t with
  | write a v =>
    rw [decodeTransaction_eq_write_iff]
    exact ⟨fun h => h.unique (encodeTransaction_write_fields a v), fun h => h ▸ encodeTransaction_write_fields a v⟩
  | read a =>
    rw [decodeTransaction_eq_read_iff]
    exact ⟨fun h => h.unique (encodeTransaction_read_fields a), fun h => h ▸ encodeTransaction_read_fields a⟩

/-- Settles O3, by the fields of a transaction's word. -/
theorem transactionWordsReadBack : Obligations.TransactionWordsReadBack := by
  refine ⟨fun t => (decodeTransaction_eq_some_iff _ t).mpr rfl, fun w t => (decodeTransaction_eq_some_iff w t).mp,
    fun a v => ?write, fun a => ?read, rfl, rfl⟩
  case write =>
    obtain ⟨top, dir, index, data⟩ := encodeTransaction_write_fields a v
    exact ⟨top, dir, index, data⟩
  case read =>
    obtain ⟨top, dir, index, data⟩ := encodeTransaction_read_fields a
    exact ⟨top, dir, index, data⟩

end Sys2Proof
end

section
/-! PROOF. The 16-bit words of bar-ROM entries (spec/30_encoding.md R87), by their four fields, and the check that `boot` makes
of them (spec/44_bar.md R163, spec/70_reset_and_hazards.md R233). -/

namespace Sys2Proof.Machine

/-- The four fields of a word are those of an entry (R87). -/
structure BarFields (w : BitVec 16) (e : BarEntry) : Prop where
  ac : barWordAc w = e.asc.chr.val
  ab : barWordAb w = e.asc.bit.val
  dc : barWordDc w = e.desc.chr.val
  db : barWordDb w = e.desc.bit.val

/-- The fields as digits of the word's value. -/
theorem barWord_fields (w : BitVec 16) :
    barWordAc w = w.toNat / 2 ^ 12 % 2 ^ 4 ∧ barWordAb w = w.toNat / 2 ^ 8 % 2 ^ 4 ∧
      barWordDc w = w.toNat / 2 ^ 4 % 2 ^ 4 ∧ barWordDb w = w.toNat % 2 ^ 4 := by
  simp only [barWordAc, barWordAb, barWordDc, barWordDb, BitVec.extractLsb'_toNat, Nat.shiftRight_eq_div_pow, pow_zero,
    Nat.div_one, and_self]

/-- A word has the fields of an entry exactly when it is the entry's word. -/
theorem barFields_iff (w : BitVec 16) (e : BarEntry) : BarFields w e ↔ w = barWordOfEntry e := by
  obtain ⟨ac, ab, dc, db⟩ := barWord_fields w
  have := w.isLt
  have value : w = barWordOfEntry e ↔
      w.toNat = e.asc.chr.val * 2 ^ 12 + e.asc.bit.val * 2 ^ 8 + e.desc.chr.val * 2 ^ 4 + e.desc.bit.val := by
    rw [← BitVec.toNat_inj, barWordOfEntry, BitVec.toNat_ofNat, Nat.mod_eq_of_lt (by omega)]
  rw [value]
  constructor
  · rintro ⟨h1, h2, h3, h4⟩
    omega
  · intro h
    constructor <;> omega

/-- A word stands for an entry exactly when it has the entry's fields. -/
theorem barEntryOfWord_eq_some_iff (w : BitVec 16) (e : BarEntry) : barEntryOfWord w = some e ↔ BarFields w e := by
  unfold barEntryOfWord
  constructor
  · intro h
    split at h
    · cases h
      exact ⟨rfl, rfl, rfl, rfl⟩
    · cases h
  · rintro ⟨ac, ab, dc, db⟩
    have legal : (barWordAc w < 10 ∧ barWordAb w < 13) ∧ (barWordDc w < 10 ∧ barWordDb w < 13) := by omega
    rw [dif_pos legal]
    simp only [ac, ab, dc, db]

/-- A word stands for an entry exactly when its four fields are in range. -/
theorem barEntryOfWord_isSome_iff (w : BitVec 16) :
    (barEntryOfWord w).isSome = true ↔
      barWordAc w ≤ 9 ∧ barWordAb w ≤ 12 ∧ barWordDc w ≤ 9 ∧ barWordDb w ≤ 12 := by
  unfold barEntryOfWord
  split
  · next h => simp only [Option.isSome_some, true_iff]; omega
  · next h => simp only [Option.isSome_none, Bool.false_eq_true, false_iff]; omega

/-- The legal words are those that stand for an entry. -/
theorem barWordWellFormed_eq_isSome (w : BitVec 16) : barWordWellFormed w = (barEntryOfWord w).isSome := by
  rw [Bool.eq_iff_iff, barEntryOfWord_isSome_iff]
  simp only [barWordWellFormed, Bool.and_eq_true, decide_eq_true_eq, and_assoc]

/-- Settles O4: a word's fields are an entry's exactly when it is the entry's word, and they are a decoded entry's. -/
theorem barWordsReadBack : Obligations.BarWordsReadBack := by
  refine ⟨fun e => ?entry, fun w e h => ?word, fun w => ?illegal⟩
  case entry => rw [barEntryOfWord_eq_some_iff, barFields_iff]
  case word =>
    have fields := (barEntryOfWord_eq_some_iff w e).mp h
    have word := (barFields_iff w e).mp fields
    obtain ⟨ac, ab, dc, db⟩ := fields
    exact ⟨word, ac.symm, ab.symm, dc.symm, db.symm⟩
  case illegal =>
    rw [← Option.not_isSome_iff_eq_none, barEntryOfWord_isSome_iff]
    rfl

/-! ### Loading a configuration -/

/-- An image with a word out of range is refused (R163, R233). -/
theorem boot_of_illegal {img : ConfigImage} {k : Fin 65} (h : barWordWellFormed img.barWords[k] = false) :
    boot img = .refused .illegalConfiguration := by
  rw [barWordWellFormed_eq_isSome] at h
  have notLoaded : loadConfig img = none := by
    unfold loadConfig
    exact dif_neg fun all => absurd ((all k).symm.trans h) Bool.noConfusion
  simp only [boot, notLoaded]

/-- An image whose words all stand for an entry is loaded as it is written (R87). -/
theorem loadConfig_of_legal {img : ConfigImage} (h : ∀ k : Fin 65, (barEntryOfWord img.barWords[k]).isSome = true) :
    ∃ cfg : Config, loadConfig img = some cfg ∧ cfg.charRom = img.charWords ∧ cfg.spareCycles = img.spareCycles ∧
      ∀ k : Fin 65, barEntryOfWord img.barWords[k] = some cfg.barRom[k] := by
  unfold loadConfig
  rw [dif_pos h]
  exact ⟨_, rfl, rfl, rfl, fun k => by simp⟩

/-- Any other image becomes the configuration whose entries its words stand for (R87, R233). -/
theorem boot_of_legal {img : ConfigImage} (h : ∀ k : Fin 65, barWordWellFormed img.barWords[k] = true) :
    ∃ cfg : Config, boot img = .next { State.reset with cfg := cfg } ∧ cfg.charRom = img.charWords ∧
      cfg.spareCycles = img.spareCycles ∧ ∀ k : Fin 65, barEntryOfWord img.barWords[k] = some cfg.barRom[k] := by
  simp only [barWordWellFormed_eq_isSome] at h
  obtain ⟨cfg, loaded, chars, spare, entries⟩ := loadConfig_of_legal h
  exact ⟨cfg, by simp only [boot, loaded], chars, spare, entries⟩

/-- Settles O5. The words of the loaded entries are the image's because each stands for its entry. -/
theorem illegalConfigurationRefused : Obligations.IllegalConfigurationRefused := by
  refine ⟨fun img ⟨k, h⟩ => boot_of_illegal h, fun img h => ?_⟩
  obtain ⟨cfg, boots, chars, spare, entries⟩ := boot_of_legal h
  exact ⟨cfg, boots, chars, spare, fun k =>
    (barFields_iff _ _).mp ((barEntryOfWord_eq_some_iff _ _).mp (entries k))⟩

end Sys2Proof.Machine
end

section
/-! PROOF. The host's side of the encoding: `D` from its four words, the branch of a host script, and the expansions of the
pseudo-statements (spec/30_encoding.md R86, R88, R89). -/

namespace Sys2Proof.Machine

/-! ### `D` from its four words -/

/-- `D` after the four words of `w` have been put, from DATA0 to DATA3. -/
def putDataWords (d : Payload) (w : Fin 4 → Word) : Payload :=
  putDataWord (putDataWord (putDataWord (putDataWord d 0 (w 0)) 1 (w 1)) 2 (w 2)) 3 (w 3)

/-- The four words replace all of `D`: bit `n` is bit `n mod 32` of word `n div 32` (R35, R54). -/
theorem putDataWords_getLsbD (d : Payload) (w : Fin 4 → Word) (n : Nat) (hn : n < 102) :
    (putDataWords d w).getLsbD n = (w ⟨n / 32, by omega⟩).getLsbD (n % 32) := by
  simp only [putDataWords, putDataWord_getLsbD _ _ _ n hn]
  obtain h | h | h | h : n / 32 = 0 ∨ n / 32 = 1 ∨ n / 32 = 2 ∨ n / 32 = 3 := by omega
  all_goals simp [h]

/-- `D = DATA3[5:0] ++ DATA2 ++ DATA1 ++ DATA0` (R86). -/
theorem putDataWords_eq_append (d : Payload) (w : Fin 4 → Word) :
    putDataWords d w = ((w 3).extractLsb' 0 6 ++ w 2 ++ w 1 ++ w 0 : BitVec (6 + 32 + 32 + 32)) := by
  apply BitVec.eq_of_getLsbD_eq
  intro n hn
  rw [putDataWords_getLsbD d w n hn]
  simp only [BitVec.getLsbD_append, BitVec.getLsbD_extractLsb']
  obtain h | h | h | h : n / 32 = 0 ∨ n / 32 = 1 ∨ n / 32 = 2 ∨ n / 32 = 3 := by omega
  all_goals
    rw [show n % 32 = n - 32 * (n / 32) by omega]
    simp only [h, Nat.sub_sub]
    grind

/-- The four words of `v` put `v` in place of `D`. -/
theorem putDataWords_dataWord (d v : Payload) : putDataWords d (dataWord v) = v := by
  apply BitVec.eq_of_getLsbD_eq
  intro n hn
  rw [putDataWords_getLsbD d _ n hn, dataWord_getLsbD _ _ _ (Nat.mod_lt _ (by decide)), Nat.div_add_mod]

/-- The value of two words written one after the other. -/
theorem toNat_append_eq_add {m n : Nat} (a : BitVec m) (b : BitVec n) : (a ++ b).toNat = a.toNat * 2 ^ n + b.toNat := by
  rw [BitVec.toNat_append, ← Nat.shiftLeft_add_eq_or_of_lt b.isLt, Nat.shiftLeft_eq]

/-- The value of `D` from the values of its words (R86). -/
theorem putDataWords_toNat (d : Payload) (w : Fin 4 → Word) :
    (putDataWords d w).toNat =
      ((w 3).toNat % 64) * 2 ^ 96 + (w 2).toNat * 2 ^ 64 + (w 1).toNat * 2 ^ 32 + (w 0).toNat := by
  rw [putDataWords_eq_append]
  simp only [toNat_append_eq_add, BitVec.extractLsb'_toNat]
  omega

/-- Four writes to DATA0 to DATA3 of the idle block put their words (R54). -/
theorem memWrite_data_four {s : State} (hb : s.busy = false) (w : Fin 4 → Word) :
    (memWrite (Reg.data 3).index (w 3) (memWrite (Reg.data 2).index (w 2)
      (memWrite (Reg.data 1).index (w 1) (memWrite (Reg.data 0).index (w 0) s)))).d = putDataWords s.d w := by
  simp only [memWrite_data, dataWrite_busy, hb, dataWrite_d, putDataWords]

/-- Settles O13: no bit of the `D` before the writes is left. -/
theorem fourDataWritesAssembleD : Obligations.FourDataWritesAssembleD := by
  refine fun s hb => ⟨fun w0 w1 w2 w3 => ?words, fun v => ?slices⟩
  case words =>
    have written := memWrite_data_four hb ![w0, w1, w2, w3]
    have value := putDataWords_toNat s.d ![w0, w1, w2, w3]
    exact (congrArg BitVec.toNat written).trans value
  case slices => exact (memWrite_data_four hb (dataWord v)).trans (putDataWords_dataWord s.d v)

/-! ### Branches -/

/-- In the host's turn a branch it does next is a read, after which the host goes on where the masked value says (R88). -/
theorem step_of_bnz {s : State} {a : Index} {mask : Word} {target : Nat} (ha : nextAgent s = .host)
    (ho : nextOp s = some (.bnz a mask target)) :
    step s = .next (hostRead a
      { s with pos := if readValue a s &&& mask ≠ 0 then target else s.pos + 1, sched := s.sched.tail }) := by
  rw [step_of_host ha, hostTurn_of_bnz (s := s.spendTurn) ho]
  rfl

/-- Bit 0 of STATUS is BUSY, so mask 1 asks for it (R33, R89). -/
theorem status_and_one_ne_zero_iff (s : State) : readValue 0x02 s &&& 1 ≠ 0 ↔ s.busy = true := by
  obtain ⟨-, fields⟩ := statusRegisterFields
  obtain ⟨busy, -⟩ := fields s
  rw [show (1 : Word) = 1#32 from rfl, BitVec.and_one_eq_setWidth_ofBool_getLsbD, busy]
  cases s.busy <;> decide

/-- Settles O21: a read leaves the block alone, and for STATUS and mask 1 the masked value is BUSY. -/
theorem branchFollowsMaskedRead : Obligations.BranchFollowsMaskedRead := by
  intro s a mask target ha ho
  refine ⟨_, step_of_bnz ha ho, sameResults_update s .., rfl, rfl, rfl, rfl, rfl, ?taken, ?status⟩
  case taken =>
    by_cases h : readValue a s &&& mask = 0
    · exact .inr ⟨if_neg (not_not_intro h), h⟩
    · exact .inl ⟨if_pos h, h⟩
  case status =>
    rintro rfl rfl
    simp only [hostRead_pos, status_and_one_ne_zero_iff]

/-! ### Pseudo-statements -/

/-- A label in front of a script names its first action (R88). -/
theorem labelPosition_self (l : Nat) (p : List Stmt) : labelPosition l (.label l :: p) = some 0 := if_pos rfl

theorem assemble_of_wellFormed {p : List Stmt} (h : scriptWellFormed p = true) : assemble p = assembleIn p p := if_pos h

/-- A script whose only label is the one it branches to is well formed (log entry 10). -/
theorem scriptWellFormed_of_one_label {p : List Stmt} {l : Nat} (hl : scriptLabels p = [l])
    (ht : scriptTargets p = [l]) : scriptWellFormed p = true := by
  simp [scriptWellFormed, hl, ht]

/-- Settles O22: `CMD` and `LDD` have no label, and the label of `WAIT` names the branch itself. -/
theorem pseudoStatementsExpand : Obligations.PseudoStatementsExpand := by
  refine ⟨fun i => rfl, fun l => ?wait, fun i l => ?run, fun v => rfl⟩
  case wait =>
    rw [assemble_of_wellFormed (scriptWellFormed_of_one_label (l := l) rfl rfl)]
    simp only [pseudoWait, assembleIn, labelPosition_self]
    rfl
  case run =>
    rw [assemble_of_wellFormed (scriptWellFormed_of_one_label (l := l) rfl rfl)]
    simp only [pseudoRun, pseudoCmd, pseudoWait, List.singleton_append, assembleIn, labelPosition, if_true]
    rfl

end Sys2Proof.Machine
end

section
/-! PROOF. The CRC-11 function: its step as a rule on bits, its linearity, the remainder it is, what one data bit does to
the FCS, and the byte-frame form (spec/41_crc11.md R100 to R106). -/

namespace Sys2Proof.Machine

/-! ### One step -/

/-- What the mask leaves of the generator (R103). -/
theorem poly_masked : poly.setWidth 11 = (0x735 : Fcs) := rfl

/-- The `x^11` of the generator falls to the mask (R103). -/
theorem crcShift_eq (r : Fcs) (fb : Bool) : crcShift r fb = (r <<< 1) ^^^ (if fb then 0x735 else 0) := by
  cases fb <;> simp [crcShift, BitVec.setWidth_xor, poly_masked]

/-- Bit `i` after a shift: the bit below it, and the generator's bit `i` on feedback (R101). -/
theorem crcShift_getLsbD (r : Fcs) (fb : Bool) (i : Nat) (hi : i < 11) :
    (crcShift r fb).getLsbD i = ((!decide (i < 1) && r.getLsbD (i - 1)) ^^ (fb && poly.getLsbD i)) := by
  rw [crcShift_eq, BitVec.getLsbD_xor, BitVec.getLsbD_shiftLeft, ← poly_masked]
  cases fb <;> simp [hi]

/-- Settles O32: the step is the shift with the feedback bit of R101. -/
theorem crcStepIsElevenBitStep : Obligations.CrcStepIsElevenBitStep := fun r b => crcShift_eq r (r.getLsbD 10 ^^ b)

/-! ### The function -/

theorem crc11_eq (d : Payload) : crc11 d = crcLoop d 102 crcInit := by
  rw [crc11]

/-- R104: the FCS of `D = 0`. -/
theorem crc11_zero : crc11 0 = 0x6E0 := by decide +kernel

/-- Settles O30: the whole next state is the definition's; the two values are evaluated. -/
theorem crcWritesFcs : Obligations.CrcWritesFcs := ⟨fun _ => rfl, crc11_zero, by decide +kernel⟩

/-! ### Linearity over GF(2) -/

theorem crcShift_xor (r r' : Fcs) (fb fb' : Bool) :
    crcShift (r ^^^ r') (fb ^^ fb') = crcShift r fb ^^^ crcShift r' fb' := by
  apply BitVec.eq_of_getLsbD_eq
  intro i hi
  simp only [BitVec.getLsbD_xor, crcShift_getLsbD _ _ i hi]
  grind

theorem crcStep_xor (r r' : Fcs) (b b' : Bool) : crcStep (r ^^^ r') (b ^^ b') = crcStep r b ^^^ crcStep r' b' := by
  rw [crcStep, crcStep, crcStep, ← crcShift_xor, BitVec.getLsbD_xor, Bool.xor_assoc, Bool.xor_left_comm _ b,
    Bool.xor_assoc]

/-- Data and register go through the loop linearly. -/
theorem crcLoop_xor (d d' : Payload) (n : Nat) (r r' : Fcs) :
    crcLoop (d ^^^ d') n (r ^^^ r') = crcLoop d n r ^^^ crcLoop d' n r' := by
  induction n generalizing r r' with
  | zero => rfl
  | succ n ih => rw [crcLoop, crcLoop, crcLoop, ← ih, ← crcStep_xor, BitVec.getLsbD_xor]

/-- Against the CRC of 0 the initial value drops out, and what remains is the loop from register 0. -/
theorem crc11_xor_crc11_zero (d : Payload) : crc11 d ^^^ crc11 0 = crcLoop d 102 0 := by
  rw [crc11_eq, crc11_eq, ← crcLoop_xor, BitVec.xor_self]
  simp

theorem crc11_xor (a b : Payload) : crc11 (a ^^^ b) = crc11 a ^^^ crc11 b ^^^ crc11 0 := by
  rw [BitVec.xor_assoc, crc11_xor_crc11_zero, crc11_eq, crc11_eq, ← crcLoop_xor]
  simp

/-- The syndrome of bit `j` is the loop from register 0 (R104). -/
theorem syndrome_eq_crcLoop (j : Nat) : syndrome j = crcLoop (BitVec.twoPow 102 j) 102 0 := by
  rw [syndrome, ← crc11_zero, crc11_xor_crc11_zero]

/-- Flipping bit `j` of `D` adds its syndrome to the FCS (R105). -/
theorem crc11_xor_twoPow (d : Payload) (j : Nat) : crc11 (d ^^^ BitVec.twoPow 102 j) = crc11 d ^^^ syndrome j := by
  rw [crc11_xor, syndrome, crc11_zero, BitVec.xor_assoc]

/-! ### The sum of the syndromes -/

/-- The low `n` bits of `D`. -/
def lowBits (d : Payload) (n : Nat) : Payload := (d.setWidth n).setWidth 102

theorem lowBits_getLsbD (d : Payload) (n i : Nat) (hi : i < 102) :
    (lowBits d n).getLsbD i = (decide (i < n) && d.getLsbD i) := by
  simp [lowBits, hi]

theorem lowBits_zero (d : Payload) : lowBits d 0 = 0 :=
  BitVec.eq_of_getLsbD_eq fun i hi => by simp [lowBits_getLsbD d 0 i hi]

theorem lowBits_all (d : Payload) : lowBits d 102 = d := by
  rw [lowBits, BitVec.setWidth_eq, BitVec.setWidth_eq]

theorem lowBits_succ (d : Payload) (n : Nat) :
    lowBits d (n + 1) = if d.getLsbD n then lowBits d n ^^^ BitVec.twoPow 102 n else lowBits d n := by
  apply BitVec.eq_of_getLsbD_eq
  intro i hi
  split
  · simp only [BitVec.getLsbD_xor, lowBits_getLsbD d _ i hi, BitVec.getLsbD_twoPow]
    grind
  · simp only [lowBits_getLsbD d _ i hi]
    grind

/-- Each bit that is 1 adds its syndrome to `crc11(0)` (R104). -/
theorem crc11_lowBits (d : Payload) (n : Nat) :
    crc11 (lowBits d n) = (List.range n).foldl (fun r j => if d.getLsbD j then r ^^^ syndrome j else r) 0x6E0 := by
  induction n with
  | zero => exact (congrArg crc11 (lowBits_zero d)).trans crc11_zero
  | succ n ih =>
    rw [List.range_succ, List.foldl_concat, ← ih, lowBits_succ]
    split
    · rw [crc11_xor_twoPow]
    · rfl

theorem crc11_eq_sum_syndromes (d : Payload) :
    crc11 d = (List.range 102).foldl (fun r j => if d.getLsbD j then r ^^^ syndrome j else r) 0x6E0 := by
  rw [← crc11_lowBits, lowBits_all]

/-! ### The remainder modulo the generator -/

/-- What is left to divide after the steps down to bit `n`: the register above the data bits not yet used (R104). -/
def crcDividend (d : Payload) (n : Nat) (r : Fcs) : Nat := (r.toNat <<< n) ^^^ ((d.toNat % 2 ^ n) <<< 11)

/-- The register's bits stand from position `n`, the data bits from position 11. -/
theorem crcDividend_testBit (d : Payload) (n : Nat) (r : Fcs) (i : Nat) :
    (crcDividend d n r).testBit i =
      ((decide (n ≤ i) && r.getLsbD (i - n)) ^^ (decide (11 ≤ i) && (decide (i - 11 < n) && d.getLsbD (i - 11)))) := by
  simp [crcDividend, BitVec.getLsbD, Nat.testBit_mod_two_pow]

/-- The bit the division looks at is the feedback bit of the step. -/
theorem crcDividend_testBit_top (d : Payload) (n : Nat) (r : Fcs) :
    (crcDividend d (n + 1) r).testBit (11 + n) = (r.getLsbD 10 ^^ d.getLsbD n) := by
  rw [crcDividend_testBit, show 11 + n - (n + 1) = 10 by omega, Nat.add_sub_cancel_left]
  simp

/-- Bit `i` after the generator times `x^n` is taken off where `fb` is 1. -/
theorem testBit_takeGenerator (fb : Bool) (v n i : Nat) :
    (if fb then v ^^^ (poly.toNat <<< n) else v).testBit i =
      (v.testBit i ^^ (fb && (decide (n ≤ i) && poly.getLsbD (i - n)))) := by
  cases fb <;> simp [Nat.testBit_shiftLeft, BitVec.getLsbD]

/-- One step of the loop is one step of the division: taking the generator off clears bit `11 + n`. -/
theorem crcDividend_step (d : Payload) (n : Nat) (r : Fcs) :
    (if (crcDividend d (n + 1) r).testBit (11 + n) then crcDividend d (n + 1) r ^^^ (poly.toNat <<< n)
      else crcDividend d (n + 1) r) = crcDividend d n (crcStep r (d.getLsbD n)) := by
  rw [crcDividend_testBit_top]
  apply Nat.eq_of_testBit_eq
  intro i
  rw [testBit_takeGenerator, crcDividend_testBit, crcDividend_testBit, crcStep]
  obtain low | ⟨k, rfl⟩ : i < n ∨ ∃ k, i = n + k := (lt_or_ge i n).imp_right Nat.exists_eq_add_of_le
  · grind
  rw [Nat.add_sub_cancel_left]
  obtain kept | rfl | above : k < 11 ∨ k = 11 ∨ 11 < k := by omega
  · rw [crcShift_getLsbD _ _ k kept]
    grind
  · have top : poly.getLsbD 11 = true := rfl
    rw [top]
    grind
  · rw [BitVec.getLsbD_of_ge poly k above]
    grind

/-- Running the loop is dividing what is left. -/
theorem crcLoop_toNat (d : Payload) (n : Nat) (r : Fcs) : (crcLoop d n r).toNat = polyMod n (crcDividend d n r) := by
  induction n generalizing r with
  | zero => simp [crcLoop, polyMod, crcDividend, Nat.mod_one]
  | succ n ih => rw [crcLoop, ih, polyMod, crcDividend_step]

theorem crcDividend_all (d : Payload) (r : Fcs) : crcDividend d 102 r = (d.toNat <<< 11) ^^^ (r.toNat <<< 102) := by
  rw [crcDividend, Nat.mod_eq_of_lt d.isLt, Nat.xor_comm]

theorem crc11_toNat (d : Payload) : (crc11 d).toNat = polyMod 102 ((d.toNat <<< 11) ^^^ (0x7FF <<< 102)) := by
  rw [crc11_eq, crcLoop_toNat, crcDividend_all]; rfl

theorem syndrome_toNat (j : Nat) (hj : j < 102) : (syndrome j).toNat = polyMod 102 (2 ^ (11 + j)) := by
  rw [syndrome_eq_crcLoop, crcLoop_toNat, crcDividend_all]
  simp [BitVec.toNat_twoPow_of_lt hj, Nat.shiftLeft_eq, Nat.pow_add, Nat.mul_comm]

/-- Settles O33: the loop divides, and its linearity makes the FCS a sum of syndromes. -/
theorem crcIsPolynomialRemainder : Obligations.CrcIsPolynomialRemainder :=
  ⟨crc11_toNat, crc11_xor, crc11_zero, crc11_eq_sum_syndromes, syndrome_toNat⟩

/-! ### One flipped bit -/

/-- Multiplication by `x` modulo the generator: a step on data bit 0. -/
def crcTimesX (r : Fcs) : Fcs := crcStep r false

theorem crcTimesX_getLsbD (r : Fcs) (i : Nat) (hi : i < 11) :
    (crcTimesX r).getLsbD i = ((!decide (i < 1) && r.getLsbD (i - 1)) ^^ (r.getLsbD 10 && poly.getLsbD i)) := by
  rw [crcTimesX, crcStep, crcShift_getLsbD _ _ i hi, Bool.xor_false]

/-- The generator has a term 1, so multiplication by `x` can be undone: bit 0 of the product is the bit shifted out. -/
theorem crcTimesX_injective : Function.Injective crcTimesX := by
  intro r r' h
  have bits (i : Nat) (hi : i < 11) :
      ((!decide (i < 1) && r.getLsbD (i - 1)) ^^ (r.getLsbD 10 && poly.getLsbD i)) =
        ((!decide (i < 1) && r'.getLsbD (i - 1)) ^^ (r'.getLsbD 10 && poly.getLsbD i)) := by
    rw [← crcTimesX_getLsbD r i hi, h, crcTimesX_getLsbD r' i hi]
  have top : r.getLsbD 10 = r'.getLsbD 10 := by simpa [poly] using bits 0 (by decide)
  apply BitVec.eq_of_getLsbD_eq
  intro i hi
  obtain below | rfl : i < 10 ∨ i = 10 := by omega
  · have next := bits (i + 1) (by omega)
    rw [top] at next
    simpa using next
  · exact top

/-- Below the one bit that is 1 every step multiplies by `x`. -/
theorem crcLoop_twoPow_below (j n : Nat) (hn : n ≤ j) (r : Fcs) :
    crcLoop (BitVec.twoPow 102 j) n r = crcTimesX^[n] r := by
  induction n generalizing r with
  | zero => rfl
  | succ n ih =>
    have bit : (BitVec.twoPow 102 j).getLsbD n = false := by simp; omega
    rw [crcLoop, ih (by omega), bit, Function.iterate_succ_apply]; rfl

/-- From register 0 nothing happens above the bit that is 1; it adds the generator, and `j` steps are left. -/
theorem crcLoop_twoPow (j n : Nat) (hj : j < 102) (hn : j < n) :
    crcLoop (BitVec.twoPow 102 j) n 0 = crcTimesX^[j] 0x735 := by
  induction n with
  | zero => omega
  | succ n ih =>
    rw [crcLoop]
    obtain above | rfl : j < n ∨ j = n := by omega
    · have bit : (BitVec.twoPow 102 j).getLsbD n = false := by simp; omega
      rw [bit]
      exact ih above
    · have bit : (BitVec.twoPow 102 j).getLsbD j = true := by simp [hj]
      rw [bit]
      exact crcLoop_twoPow_below j j le_rfl _

/-- `S[j]` is `S[0]` times `x^j` (R106). -/
theorem syndrome_eq_iterate (j : Nat) (hj : j < 102) : syndrome j = crcTimesX^[j] 0x735 := by
  rw [syndrome_eq_crcLoop, crcLoop_twoPow j 102 hj hj]

/-- Within 102 steps the powers of `x` do not come back to the first syndrome. -/
theorem crcTimesX_iterate_ne (m : Nat) (h0 : 0 < m) (hm : m < 102) : crcTimesX^[m] 0x735 ≠ 0x735 := by
  have no_return : (0x735 : Fcs) ∉ List.iterate crcTimesX (crcTimesX 0x735) 101 := by decide +kernel
  exact fun h => no_return (List.mem_iterate.mpr ⟨m - 1, by omega, by
    rw [← Function.iterate_succ_apply, Nat.succ_eq_add_one, Nat.sub_add_cancel h0, h]⟩)

/-- No syndrome is 0, because multiplication by `x` keeps 0 (R105). -/
theorem syndrome_ne_zero (j : Nat) (hj : j < 102) : syndrome j ≠ 0 := by
  rw [syndrome_eq_iterate j hj]
  intro h
  have zero : crcTimesX^[j] 0 = 0 := Function.iterate_fixed rfl j
  exact absurd (crcTimesX_injective.iterate j (h.trans zero.symm)) (by decide)

/-- The syndromes of R106 are pairwise distinct. -/
theorem syndrome_inj {j k : Nat} (hj : j < 102) (hk : k < 102) (h : syndrome j = syndrome k) : j = k := by
  wlog hle : k ≤ j generalizing j k
  · exact (this hk hj h.symm (by omega)).symm
  rw [syndrome_eq_iterate j hj, syndrome_eq_iterate k hk] at h
  have back := Function.iterate_cancel crcTimesX_injective h
  by_contra hne
  exact crcTimesX_iterate_ne (j - k) (by omega) (by omega) back

/-- Settles O34: a flip adds the bit's syndrome; no syndrome is 0 and no two are equal. -/
theorem singleBitFlipChangesFcs : Obligations.SingleBitFlipChangesFcs := by
  refine ⟨fun d j hj h => ?one, fun d j k hj hk hne h => ?two⟩
  case one =>
    rw [crc11_xor_twoPow] at h
    exact syndrome_ne_zero j hj (by simpa using h)
  case two =>
    rw [crc11_xor_twoPow, crc11_xor_twoPow] at h
    exact hne (syndrome_inj hj hk (by simpa using h))

/-! ### The byte-frame form -/

/-- The `m` steps on a byte are the loop's steps on bits `b + m - 1` down to `b` of `D`, if `data` holds these bits with
the first of them at position 10 (R102). -/
theorem crcLoop_add (d : Payload) (b m : Nat) (hm : m ≤ 11) (r : Fcs) (data : BitVec 16)
    (hdata : ∀ i < m, data.getLsbD (11 - m + i) = d.getLsbD (b + i)) :
    crcLoop d (b + m) r = crcLoop d b (crcByteSteps m r data) := by
  induction m generalizing r data with
  | zero => rfl
  | succ m ih =>
    have top : data.getLsbD 10 = d.getLsbD (b + m) := by
      rw [← hdata m (by omega), show 11 - (m + 1) + m = 10 by omega]
    have rest : ∀ i < m, (data <<< 1).getLsbD (11 - m + i) = d.getLsbD (b + i) := by
      intro i hi
      rw [← hdata i (by omega), BitVec.getLsbD_shiftLeft, show 11 - m + i - 1 = 11 - (m + 1) + i by omega]
      simp
      omega
    rw [← Nat.add_assoc, crcLoop, ih (by omega) _ _ rest, crcByteSteps, crcStep, ← top]
    simp

theorem frameByte_getLsbD (d : Payload) (n i : Nat) (hi : i < 8) :
    (frameByte d n).getLsbD i = d.getLsbD (96 - 8 * n + i) := by
  simp [frameByte, hi]; grind

/-- The bits of a byte put at position `k` of `data`. -/
theorem byteData_getLsbD (byte : BitVec 8) (k i : Nat) (hi : k + i < 16) :
    (byte.setWidth 16 <<< k).getLsbD (k + i) = byte.getLsbD i := by
  simp [hi]

/-- The bytes 1 to `n` hold the bits of `D` from 95 down (R59). -/
theorem crcLoop_crcBytes (d : Payload) (n : Nat) (hn : n ≤ 12) (r : Fcs) :
    crcLoop d (96 - 8 * n) (crcBytes d n r) = crcLoop d 96 r := by
  induction n with
  | zero => rfl
  | succ n ih =>
    have bits : ∀ i < 8, ((frameByte d (n + 1)).setWidth 16 <<< 3).getLsbD (11 - 8 + i) =
        d.getLsbD (96 - 8 * (n + 1) + i) := by
      intro i hi
      rw [byteData_getLsbD _ 3 i (by omega), frameByte_getLsbD d (n + 1) i hi]
    rw [← ih (by omega), crcBytes, ← crcLoop_add d _ 8 (by decide) _ _ bits,
      show 96 - 8 * (n + 1) + 8 = 96 - 8 * n by omega]

/-- Settles O31: the 6 bits of byte 0 and the 8 of each other byte are the bits of `D` from 101 down. -/
theorem crcFrameFormAgrees : Obligations.CrcFrameFormAgrees := by
  intro d
  have low : ∀ i < 6, ((frameByte d 0).setWidth 16 <<< 5).getLsbD (11 - 6 + i) = d.getLsbD (96 + i) := by
    intro i hi
    rw [byteData_getLsbD _ 5 i (by omega), frameByte_getLsbD d 0 i (by omega)]
  calc crc11Frame d
    _ = crcLoop d 96 (crcByteSteps 6 crcInit ((frameByte d 0).setWidth 16 <<< 5)) := crcLoop_crcBytes d 12 le_rfl _
    _ = crcLoop d 102 crcInit := (crcLoop_add d 96 6 (by decide) _ _ low).symm
    _ = crc11 d := (crc11_eq d).symm

end Sys2Proof.Machine
end

section
/-! PROOF. The decomposition and the two adjustments (spec/42_codeword.md): the raw codewords as digits of `D`, the way back
from them, and what the adjustments do to them. -/

namespace Sys2Proof.Machine

/-! ### The raw codewords -/

/-- Settles O35: the whole next state is the definition's. -/
theorem decompWritesCodewords : Obligations.DecompWritesCodewords := fun _ => rfl

/-- A value below `2^13` is not truncated by the codeword register. -/
theorem toNat_ofNat_codeword {n : Nat} (h : n < 2 ^ 13) : (BitVec.ofNat 13 n).toNat = n := by
  rw [BitVec.toNat_ofNat, Nat.mod_eq_of_lt h]

/-- A digit to a radix of at most `2^13` fits the codeword register. -/
theorem toNat_ofNat_digit (n : Nat) {m : Nat} (h0 : 0 < m) (h : m ≤ 2 ^ 13) :
    (BitVec.ofNat 13 (n % m)).toNat = n % m :=
  toNat_ofNat_codeword ((Nat.mod_lt n h0).trans_le h)

/-- Settles O36: a division by `636` and repeated ones by `1365` are one by their product, and the final quotient of 102
bits fits like the remainders. -/
theorem decompGivesMixedRadixDigits : Obligations.DecompGivesMixedRadixDigits := by
  intro d
  rw [decomp_eq]
  simp only [Nat.div_div_eq_div_mul]
  refine ⟨toNat_ofNat_digit _ (by decide) (by decide), fun i _ h1 h8 => ?middle, toNat_ofNat_codeword ?last⟩
  case middle => interval_cases i <;> exact toNat_ofNat_digit _ (by decide) (by decide)
  case last =>
    have := d.isLt
    omega

/-- Settles O37: the ranges are those of `decomp_ranges`; 661 is the final quotient of `2^102 - 1`. -/
theorem rawCodewordRanges : Obligations.RawCodewordRanges := by
  refine ⟨fun d => ?ranges, ?reached⟩
  case ranges =>
    obtain ⟨h0, h9, hmid⟩ := decomp_ranges d
    exact ⟨h9, h0, hmid⟩
  case reached =>
    obtain ⟨-, -, h0⟩ := decompGivesMixedRadixDigits (BitVec.allOnes 102)
    exact h0.trans (by decide)

/-- The step of the recombination: a quotient times the radix and the next digit is the quotient before. -/
theorem quotient_mul_add_digit (n k : Nat) :
    n / (636 * 1365 ^ (k + 1)) * 1365 + n / (636 * 1365 ^ k) % 1365 = n / (636 * 1365 ^ k) := by
  rw [Nat.pow_succ, ← Nat.mul_assoc, ← Nat.div_div_eq_div_mul]
  exact Nat.div_add_mod' _ _

/-- Recombining the raw codewords gives back `D` (R123). -/
theorem recombine_decomp (d : Payload) : recombine (decomp d) = d.toNat := by
  obtain ⟨h9, hmid, h0⟩ := decompGivesMixedRadixDigits d
  rw [recombine, h9, h0, hmid 1, hmid 2, hmid 3, hmid 4, hmid 5, hmid 6, hmid 7, hmid 8]
  · simp only [Nat.reduceSub, quotient_mul_add_digit]
    exact Nat.div_add_mod' _ _
  all_goals decide

/-- Settles O38: what can be recombined is injective. -/
theorem decompRecombines : Obligations.DecompRecombines := by
  refine ⟨recombine_decomp, fun a b h => BitVec.eq_of_toNat_eq ?_⟩
  rw [← recombine_decomp a, h, recombine_decomp b]

/-! ### ADJUST -/

theorem prerequisite_adjust_iff (s : State) :
    prerequisite .adjust s = true ↔ s.cwV = true ∧ s.adjV = false ∧ s.fcsV = true := by
  simp [prerequisite, and_assoc]

/-- Settles O39, by the two ways ADJUST ends. -/
theorem adjustRunsOnceOrRaisesSequence : Obligations.AdjustRunsOnceOrRaisesSequence := by
  intro s
  rw [← prerequisite_adjust_iff]
  obtain ⟨hp, h⟩ | ⟨hp, h⟩ := execAdjust_cases s
  · exact ⟨fun _ => h, fun hn => absurd hp hn⟩
  · exact ⟨fun hn => absurd hn (by simp [hp]), fun _ => h⟩

/-- Of raw codewords the two adjusted ones do not wrap (R126). -/
theorem adjust_decomp_toNat (d : Payload) (f : Fcs) :
    (adjust (decomp d) f)[9].toNat = 2 * (decomp d)[9].toNat ∧
      (adjust (decomp d) f)[0].toNat = (decomp d)[0].toNat + 659 * (f.getLsbD 10).toNat := by
  obtain ⟨h0, h9, -⟩ := decomp_ranges d
  obtain ⟨e9, e0, -⟩ := adjust_entries (decomp d) f
  rw [e9, e0]
  constructor
  · rw [BitVec.toNat_mul, show (2 : Codeword).toNat = 2 from rfl]
    omega
  · cases f.getLsbD 10 with
    | false => simp
    | true =>
      rw [if_pos rfl, BitVec.toNat_add, show (659 : Codeword).toNat = 659 from rfl, Bool.toNat_true]
      omega

/-- Settles O40: the adjusted codewords as numbers, in the ranges of the raw ones. -/
theorem adjustedCodewordsInRange : Obligations.AdjustedCodewordsInRange := by
  intro d f
  obtain ⟨r0, r9, -⟩ := decomp_ranges d
  obtain ⟨-, -, emid⟩ := adjust_entries (decomp d) f
  obtain ⟨a9, a0⟩ := adjust_decomp_toNat d f
  refine ⟨a9, by omega, fun hf => ?low, fun hf => ?high, emid, fun i => ?all⟩
  case low =>
    rw [hf, Bool.toNat_false] at a0
    omega
  case high =>
    rw [hf, Bool.toNat_true] at a0
    omega
  case all => exact Nat.le_of_lt_succ (adjust_decomp_inRange d f i)

/-- The codewords after the adjustments are taken back, one by one (R127). -/
theorem unadjust_entries (a : Vector Codeword 10) (f : Fcs) :
    (unadjust a f)[9] = BitVec.ofNat 13 (a[9].toNat / 2) ∧
      (unadjust a f)[0] = BitVec.ofNat 13 (a[0].toNat - 659 * (f.getLsbD 10).toNat) ∧
      ∀ (i : Nat) (h : i < 10), 1 ≤ i → i ≤ 8 → (unadjust a f)[i] = a[i] := by
  unfold unadjust
  refine ⟨by simp, by simp, fun i h _ _ => ?_⟩
  rw [Vector.getElem_set_ne, Vector.getElem_set_ne] <;> omega

/-- The adjustment of raw codewords is undone, codeword by codeword (R127). -/
theorem unadjust_adjust_decomp (d : Payload) (f : Fcs) : unadjust (adjust (decomp d) f) f = decomp d := by
  obtain ⟨a9, a0⟩ := adjust_decomp_toNat d f
  obtain ⟨-, -, emid⟩ := adjust_entries (decomp d) f
  obtain ⟨u9, u0, umid⟩ := unadjust_entries (adjust (decomp d) f) f
  apply Vector.ext
  intro i hi
  obtain rfl | rfl | ⟨h1, h8⟩ : i = 0 ∨ i = 9 ∨ (1 ≤ i ∧ i ≤ 8) := by omega
  · rw [u0, a0, Nat.add_sub_cancel, BitVec.ofNat_toNat, BitVec.setWidth_eq]
  · rw [u9, a9, Nat.mul_div_cancel_left _ Nat.two_pos, BitVec.ofNat_toNat, BitVec.setWidth_eq]
  · rw [umid i hi h1 h8, emid i hi h1 h8]

/-- Settles O41: undoing the adjustment gives the raw codewords, and these recombine to `D`. -/
theorem adjustIsUndone : Obligations.AdjustIsUndone := fun d f =>
  ⟨unadjust_adjust_decomp d f, by rw [unadjust_adjust_decomp d f, recombine_decomp]⟩

end Sys2Proof.Machine
end

section
/-! PROOF. The characters (spec/43_character.md): which codewords have them, each one against its ROM entry, and the three
ways CHARMAP ends. -/

namespace Sys2Proof.Machine

/-! ### The ten characters -/

/-- The characters exist where all codewords are in range, and each is that of its own codeword and FCS bit (R141). -/
theorem charmap_eq_some_iff (cfg : Config) (cs : Vector Codeword 10) (f : Fcs) (ch : Vector Character 10) :
    charmap cfg cs f = some ch ↔ ∃ h : codewordsInRange cs, ∀ i : Fin 10, ch[i] = character cfg cs f i (h i) := by
  by_cases hin : codewordsInRange cs
  · rw [charmap_of_inRange cfg f hin, Option.some_inj]
    constructor
    · rintro rfl
      exact ⟨hin, fun i => by simp⟩
    · rintro ⟨_, h⟩
      exact Vector.ext fun i hi => by simpa using (h ⟨i, hi⟩).symm
  · rw [charmap_of_not_inRange cfg f hin]
    exact ⟨nofun, fun ⟨h, _⟩ => absurd h hin⟩

/-- A codeword in range is an index of the character ROM (R64). -/
theorem charRom_getElem? (cfg : Config) {n : Nat} (h : n < 1365) : cfg.charRom[n]? = some (charRom cfg n h) :=
  Vector.getElem?_eq_getElem h

/-- Settles O45: a character depends on the FCS by the bit of its own number alone, and there are ten. -/
theorem highFcsBitSelectsNoCharacter : Obligations.HighFcsBitSelectsNoCharacter := by
  intro cfg cs f g hbits
  have same (i : Fin 10) (h : (cs[i]).toNat < 1365) : character cfg cs f i h = character cfg cs g i h := by
    rw [character, character, hbits i.val i.isLt]
  by_cases hin : codewordsInRange cs
  · simp only [charmap_of_inRange cfg _ hin, same]
  · rw [charmap_of_not_inRange cfg f hin, charmap_of_not_inRange cfg g hin]

/-! ### The complement -/

/-- The mask covers all 13 bits: the complement has the 1 bits that the character has not. -/
theorem popcount_xor_flipMask (v : Character) : popcount (v ^^^ flipMask) = 13 - popcount v := by
  have flipped : ∀ i ∈ List.range 13, (v ^^^ flipMask).getLsbD i = !v.getLsbD i := by
    intro i hi
    have ones : flipMask.getLsbD i = true := by
      rw [show flipMask = BitVec.allOnes 13 from rfl, BitVec.getLsbD_allOnes, decide_eq_true (List.mem_range.mp hi)]
    rw [BitVec.getLsbD_xor, ones, Bool.xor_true]
  have total := List.length_eq_length_filter_add (l := List.range 13) fun i => v.getLsbD i
  rw [List.length_range] at total
  rw [popcount, popcount, List.filter_congr flipped]
  omega

/-- A ROM entry with fewer than seven 1 bits and its complement lie on the two sides of six and a half. -/
theorem flip_eq_decide_popcount {v : Character} (hv : popcount v < 7) (b : Bool) :
    b = decide (6 < popcount (if b then v ^^^ flipMask else v)) := by
  cases b with
  | false => simpa using Nat.le_of_lt_succ hv
  | true =>
    rw [if_pos rfl, popcount_xor_flipMask, eq_comm, decide_eq_true_iff]
    omega

/-- Settles O44: the difference is the mask or nothing, and the mask counts the other way. -/
theorem complementLaw : Obligations.ComplementLaw := by
  intro cfg cs f ch hch i
  obtain ⟨hin, hchars⟩ := (charmap_eq_some_iff cfg cs f ch).mp hch
  refine ⟨charRom cfg _ (hin i), charRom_getElem? cfg (hin i), ?difference, ?count, fun hrom => ?readBack⟩
  all_goals rw [hchars i, character]
  case difference =>
    cases f.getLsbD i.val with
    | false => exact BitVec.xor_self
    | true => rw [if_pos rfl, if_pos rfl, BitVec.xor_comm, ← BitVec.xor_assoc, BitVec.xor_self, BitVec.zero_xor]; rfl
  case count =>
    cases f.getLsbD i.val with
    | false => rfl
    | true => exact popcount_xor_flipMask _
  case readBack => exact flip_eq_decide_popcount (hrom ⟨_, hin i⟩) _

/-! ### CHARMAP -/

/-- CHARMAP of codewords that are not adjusted (R140). -/
theorem execCharmap_of_not_adjusted {s : State} (h : s.adjV = false) : execCharmap s = raiseError .sequence s := by
  obtain ⟨-, he⟩ | ⟨hp, -⟩ | ⟨hp, -⟩ := execCharmap_cases s
  · exact he
  all_goals exact absurd (h.symm.trans hp) Bool.false_ne_true

/-- CHARMAP of adjusted codewords that are not all in range (R142). -/
theorem execCharmap_of_not_inRange {s : State} (ha : s.adjV = true) (h : ¬ codewordsInRange s.cw) :
    execCharmap s = raiseError .lookupRange s := by
  obtain ⟨hp, -⟩ | ⟨-, -, he⟩ | ⟨-, ch, hc, -⟩ := execCharmap_cases s
  · exact absurd (hp.symm.trans ha) Bool.false_ne_true
  · exact he
  · rw [charmap_of_not_inRange s.cfg s.fcs h] at hc
    cases hc

/-- Settles O43, by the three ways CHARMAP ends. -/
theorem charmapWritesCharactersOrRaises : Obligations.CharmapWritesCharactersOrRaises := by
  refine fun s => ⟨fun ha hle => ?characters, execCharmap_of_not_adjusted, fun ha ⟨i, hi⟩ => ?range⟩
  case characters =>
    have hin : codewordsInRange s.cw := fun i => Nat.lt_succ_of_le (hle i)
    have found := charmap_of_inRange s.cfg s.fcs hin
    obtain ⟨_, hchars⟩ := (charmap_eq_some_iff ..).mp found
    exact ⟨_, execCharmap_of_ready s ha found, fun i => ⟨_, charRom_getElem? s.cfg (hin i), hchars i⟩⟩
  case range => exact execCharmap_of_not_inRange ha fun hin => Nat.not_lt_of_le hi (hin i)

/-- Settles O54: a completion from such a state reports one of the reachable codes, none of which is `LOOKUP_RANGE`. -/
theorem lookupRangeNeverRaised : Obligations.LookupRangeNeverRaised := by
  intro i s t hr h
  obtain he | he | he | he := exec_errReachable hr h <;> rw [he] <;> decide

end Sys2Proof.Machine
end

section
/-! PROOF. The bars (spec/44_bar.md): each one from its two character bits, the two ways BARMAP ends, and the mapping as a
renaming of bit positions, which is one to one where the coordinates of the bar ROM are distinct. -/

namespace Sys2Proof.Machine

/-! ### BARMAP -/

/-- A bar has room for both of its bits (R161). -/
theorem barOf_toNat (e : BarEntry) (ch : Vector Character 10) :
    (barOf e ch).toNat = 2 * (characterBit ch e.asc).toNat + (characterBit ch e.desc).toNat := by
  have asc := Bool.toNat_lt (characterBit ch e.asc)
  have desc := Bool.toNat_lt (characterBit ch e.desc)
  rw [barOf, BitVec.toNat_ofNat, Nat.mod_eq_of_lt (by omega)]

/-- Bar `k` is formed from entry `k` of the bar ROM (R161). -/
theorem barmap_getElem (cfg : Config) (ch : Vector Character 10) (k : Fin 65) :
    (barmap cfg ch)[k] = barOf (barRom cfg k) ch := by
  rw [barmap_eq]
  simp

/-- BARMAP where the characters are not valid (R160). -/
theorem execBarmap_of_not_ready {s : State} (h : s.chV = false) : execBarmap s = raiseError .sequence s := by
  obtain ⟨hp, -⟩ | ⟨-, he⟩ := execBarmap_cases s
  · exact absurd (h.symm.trans hp) Bool.false_ne_true
  · exact he

/-- Settles O46: the two ways BARMAP ends, and the bars as numbers. -/
theorem barmapWritesBarsOrRaises : Obligations.BarmapWritesBarsOrRaises := by
  refine fun s => ⟨fun hv => ⟨barmap s.cfg s.ch, execBarmap_of_ready s hv, fun k => ?bars⟩, execBarmap_of_not_ready⟩
  rw [barmap_getElem]
  exact barOf_toNat (barRom s.cfg k) s.ch

/-! ### Vectors of words as functions on bit positions -/

/-- Bit `p.2` of word `p.1`. -/
def bitAt {w n : Nat} (v : Vector (BitVec w) n) (p : Fin n × Fin w) : Bool := (v[p.1]).getLsbD p.2

/-- Words are determined by their bits, and any bits make words. -/
theorem bitAt_bijective {w n : Nat} : Function.Bijective (bitAt : Vector (BitVec w) n → Fin n × Fin w → Bool) := by
  constructor
  · intro u v h
    exact Vector.ext fun i hi => BitVec.eq_of_getLsbD_eq fun j hj => congrFun h (⟨i, hi⟩, ⟨j, hj⟩)
  · intro f
    exact ⟨Vector.ofFn fun i => BitVec.ofFnLE fun j => f (i, j), funext fun p => by simp [bitAt]⟩

/-! ### The sources of the bars -/

/-- A coordinate is a pair. -/
def coordEquiv : Coord ≃ Fin 10 × Fin 13 where
  toFun xy := (xy.chr, xy.bit)
  invFun p := ⟨p.1, p.2⟩
  left_inv _ := rfl
  right_inv _ := rfl

/-- The source of bit `p.2` of bar `p.1`: bit 1 is the ascender and bit 0 the descender (R161). -/
def barSource (cfg : Config) (p : Fin 65 × Fin 2) : Coord :=
  match p.2 with
  | 0 => (barRom cfg p.1).desc
  | 1 => (barRom cfg p.1).asc

theorem barOf_getLsbD (e : BarEntry) (ch : Vector Character 10) :
    (barOf e ch).getLsbD 0 = characterBit ch e.desc ∧ (barOf e ch).getLsbD 1 = characterBit ch e.asc := by
  unfold barOf
  cases characterBit ch e.asc <;> cases characterBit ch e.desc <;> decide

/-- `barmap` moves every bit of a bar from its source, and does nothing else. -/
theorem bitAt_barmap (cfg : Config) (ch : Vector Character 10) :
    bitAt (barmap cfg ch) = bitAt ch ∘ coordEquiv ∘ barSource cfg := by
  funext ⟨k, b⟩
  obtain ⟨desc, asc⟩ := barOf_getLsbD (barRom cfg k) ch
  rw [bitAt, barmap_getElem]
  match b with
  | 0 => exact desc
  | 1 => exact asc

/-- 130 distinct coordinates are all there are. -/
theorem mem_of_nodup_of_length {l : List Coord} (hd : l.Nodup) (hl : l.length = 130) (xy : Coord) : xy ∈ l := by
  have all : (l.map coordEquiv).toFinset = Finset.univ := by
    apply Finset.eq_univ_of_card
    rw [List.toFinset_card_of_nodup (hd.map coordEquiv.injective), List.length_map, hl]
    rfl
  exact (List.mem_map_of_injective coordEquiv.injective).mp (List.mem_toFinset.mp (all ▸ Finset.mem_univ _))

/-- Distinct coordinates leave no character bit out (R164). -/
theorem exists_bar_of_coordsDistinct {cfg : Config} (h : CoordsDistinct cfg) (xy : Coord) :
    ∃ k : Fin 65, (cfg.barRom[k]).asc = xy ∨ (cfg.barRom[k]).desc = xy := by
  have mem := mem_of_nodup_of_length h (by simp) xy
  obtain ⟨e, he, hxy⟩ := List.mem_flatMap.mp mem
  obtain ⟨k, hk, rfl⟩ := Vector.mem_iff_getElem.mp (Vector.mem_toList_iff.mp he)
  exact ⟨⟨k, hk⟩, by simpa [eq_comm] using hxy⟩

/-- The 130 bits of the bars and the 130 coordinates correspond (R164). -/
theorem barSource_bijective {cfg : Config} (h : CoordsDistinct cfg) :
    Function.Bijective (coordEquiv ∘ barSource cfg) := by
  have covers : Function.Surjective (barSource cfg) := by
    intro xy
    obtain ⟨k, hk | hk⟩ := exists_bar_of_coordsDistinct h xy
    · exact ⟨(k, 1), hk⟩
    · exact ⟨(k, 0), hk⟩
  exact (Fintype.bijective_iff_surjective_and_card _).mpr ⟨coordEquiv.surjective.comp covers, by simp⟩

/-- Settles O47: on bit positions `barmap` is the composition with a bijection. -/
theorem distinctCoordinatesMakeBarmapBijective : Obligations.DistinctCoordinatesMakeBarmapBijective := by
  refine fun cfg h => ⟨exists_bar_of_coordsDistinct h, ?_⟩
  have renames : bitAt ∘ barmap cfg = (· ∘ coordEquiv ∘ barSource cfg) ∘ bitAt := funext (bitAt_barmap cfg)
  rw [← Function.Bijective.of_comp_iff' bitAt_bijective, renames]
  exact (barSource_bijective h).comp_right.comp bitAt_bijective

end Sys2Proof.Machine
end

section
/-! PROOF. Issue and completion (spec/45_control.md): a write of CMD is accepted or rejected (R185, R202), every completion
frees the engine (R180), NOP and CLEAR end in one way each (R181, R183), and ENCODE leaves what its five stages leave
(R182, R184). -/

namespace Sys2Proof.Machine

/-! ### Issue -/

/-- A write of a word of no command to CMD of an idle block is rejected (R202). -/
theorem memWrite_cmd_of_no_command {s : State} {v : Word} (hb : s.busy = false) (hv : ∀ i, v ≠ encode i) :
    memWrite 0x01 v s = s.setErr .illegalCmd := by
  rw [memWrite_cmd s v hb, cmdWrite]
  cases hd : decode v with
  | ok i => exact absurd (eq_encode_of_decode hd) (hv i)
  | error e => rfl

/-- Settles O16: a word is a command's or no command's. -/
theorem commandWriteAcceptsOrRejects : Obligations.CommandWriteAcceptsOrRejects :=
  ⟨fun _ => rfl, fun _ hb =>
    ⟨fun i => memWrite_cmd_of_decode hb (decode_encode i), fun _ hv => memWrite_cmd_of_no_command hb hv⟩⟩

/-! ### Completion -/

/-- Settles O24, by the three ways a completion ends. -/
theorem completionFreesEngine : Obligations.CompletionFreesEngine := by
  intro i s
  obtain ⟨u, h, hd, -, hdrop, ⟨hcfg, hscript, hpos, hreads, hsched, hdraws⟩⟩ | h | h := exec_ends i s
  · exact ⟨_, h, rfl, rfl, .inl rfl, hd, hdrop, ⟨hcfg, hscript, hpos, hreads, hsched, hdraws⟩⟩
  · exact ⟨_, h, rfl, rfl, .inr (.inl rfl), rfl, rfl, ⟨rfl, rfl, rfl, rfl, rfl, rfl⟩⟩
  · exact ⟨_, h, rfl, rfl, .inr (.inr rfl), rfl, rfl, ⟨rfl, rfl, rfl, rfl, rfl, rfl⟩⟩

/-! ### NOP and CLEAR -/

/-- An idle engine is free already (R180). -/
theorem State.finish_of_idle {s : State} (hb : s.busy = false) (hp : s.pend = none) : s.finish = s := by
  rw [State.finish, ← hp, ← hb]

/-- Settles O48: acceptance and completion together write `ERR` and `DROP` alone. -/
theorem nopReportsSuccess : Obligations.NopReportsSuccess := by
  refine ⟨fun _ => rfl, fun s hb hp => ?_⟩
  rw [memWrite_cmd_of_decode (w := 0x00000000) hb (decode_encode .nop)]
  exact congrArg Host.Outcome.next (State.finish_of_idle (s := { s with err := 0, drop := false }) hb hp)

/-- Settles O51: the results hold their reset values, and issued from an idle block it leaves what reset leaves. -/
theorem clearDiscardsResults : Obligations.ClearDiscardsResults := by
  refine ⟨fun s => ?completion, fun s hb => ?issued⟩
  case completion =>
    obtain ⟨-, -, hcw, hch, hbar, -⟩ := resetValues
    exact ⟨_, rfl, rfl, rfl, hcw, hch, hbar, rfl, rfl, rfl, rfl, rfl, rfl, rfl, rfl, rfl,
      ⟨rfl, rfl, rfl, rfl, rfl, rfl⟩⟩
  case issued =>
    rw [memWrite_cmd_of_decode (w := 0x00000007) hb (decode_encode .clear)]
    rfl

/-! ### ENCODE -/

/-- ENCODE finds the characters of the adjusted codewords, whatever `D` is (R144, R182). -/
theorem exec_encode_succeeds (s : State) :
    ∃ ch, charmap s.cfg (adjust (decomp s.d) (crc11 s.d)) (crc11 s.d) = some ch ∧
      exec .encode s = succeed (s.withResults (crc11 s.d) (adjust (decomp s.d) (crc11 s.d)) ch) := by
  obtain ⟨noChars, -⟩ | found := execEncode_cases s
  · exact absurd noChars (charmap_adjust_decomp_ne_none s.cfg s.d (crc11 s.d))
  · exact found

/-- Settles O49. -/
theorem encodeRunsWholePipeline : Obligations.EncodeRunsWholePipeline := exec_encode_succeeds

/-- After a command that succeeds the others are performed on what it leaves. -/
theorem execAll_cons_of_succeed {i : Instr} {s u : State} (h : exec i s = succeed u) (l : List Instr) :
    execAll (i :: l) s = execAll l (u.setErr .ok).finish := by
  rw [execAll, h]
  rfl

/-- The state that CRC and DECOMP leave, in either order (R184). -/
def State.withRaw (s : State) : State :=
  { s with
    fcs := crc11 s.d, fcsV := true, cw := decomp s.d, cwV := true, adjV := false, chV := false, barV := false
    err := 0, pend := none, busy := false }

/-- CRC and DECOMP each read `D` alone and write different registers, so their order does not matter. -/
theorem execAll_crc_decomp (s : State) (l : List Instr) :
    execAll (.crc :: .decomp :: l) s = execAll l s.withRaw ∧ execAll (.decomp :: .crc :: l) s = execAll l s.withRaw :=
  ⟨rfl, rfl⟩

/-- From the raw results each of the last three stages sets up the next (R204), and together they leave what ENCODE
leaves. -/
theorem execAll_withRaw (s : State) : execAll [.adjust, .charmap, .barmap] s.withRaw = exec .encode s := by
  obtain ⟨ch, found, encodes⟩ := exec_encode_succeeds s
  rw [encodes, execAll_cons_of_succeed (i := .adjust) (execAdjust_of_ready s.withRaw rfl rfl rfl),
    execAll_cons_of_succeed (i := .charmap) (execCharmap_of_ready _ rfl found),
    execAll_cons_of_succeed (i := .barmap) (execBarmap_of_ready _ rfl)]
  rfl

/-- Settles O50: both orders reach the same raw results. -/
theorem encodeEqualsStageCommands : Obligations.EncodeEqualsStageCommands := by
  intro s
  obtain ⟨crcFirst, decompFirst⟩ := execAll_crc_decomp s [.adjust, .charmap, .barmap]
  exact ⟨crcFirst.trans (execAll_withRaw s), decompFirst.trans (execAll_withRaw s)⟩

end Sys2Proof.Machine
end

section
/-! PROOF. Errors (spec/60_exceptions.md): the outcomes of a host write in order of priority (R202, R203, R207, R208), the
life of `DROP` (R30, R207), and the completions that report an error (R204, R206). -/

namespace Sys2Proof

/-- The index of a word of `D` is 4 and the number of the word (R62). -/
theorem Reg.eq_data_index : ∀ a : Index, 4 ≤ a.toNat ∧ a.toNat ≤ 7 →
    a = (Reg.data (Fin.ofNat 4 (a.toNat - 4))).index := by
  decide

end Sys2Proof

namespace Sys2Proof.Machine

/-! ### Host writes -/

/-- A busy block drops every write (R207). -/
theorem memWrite_of_busy {s : State} (hb : s.busy = true) (a : Index) (v : Word) : memWrite a v s = s.markDropped := by
  simp only [memWrite, hb, if_true]

/-- A write to CMD of a word that does not decode (R202). -/
theorem memWrite_cmd_of_decode_error {s : State} {v : Word} {e : IllegalCommand} (hb : s.busy = false)
    (h : decode v = .error e) : memWrite 0x01 v s = s.setErr .illegalCmd := by
  refine memWrite_cmd_of_no_command hb ?_
  rintro i rfl
  cases (decode_encode i).symm.trans h

/-- Settles O14. -/
theorem badWriteChangesOnlyErr : Obligations.BadWriteChangesOnlyErr := fun _ _ v hb hcmd hdata =>
  memWrite_badWrite v hb hcmd hdata

/-- Settles O15: a reserved bit or, without one, a reserved opcode keeps the word from decoding. -/
theorem illegalCommandChangesOnlyErr : Obligations.IllegalCommandChangesOnlyErr := by
  intro s v hb h
  by_cases hrsv : rsvField v = 0
  · have hop : 8 ≤ (opField v).toNat := h.resolve_left fun hne => hne hrsv
    exact memWrite_cmd_of_decode_error hb (decode_of_reservedOpcode hrsv hop)
  · exact memWrite_cmd_of_decode_error hb (decode_of_rsvField_ne_zero hrsv)

/-- Settles O17, outcome by outcome in the order of the tests. -/
theorem writeOutcomesInPriorityOrder : Obligations.WriteOutcomesInPriorityOrder := by
  intro s a v
  split
  case isTrue hb => exact memWrite_of_busy hb a v
  case isFalse hb =>
    replace hb : s.busy = false := by simpa using hb
    split
    case isTrue hbad => exact memWrite_badWrite v hb hbad.1 hbad.2
    case isFalse hgood =>
      split
      case isTrue hcmd =>
        have hdata : 4 ≤ a.toNat ∧ a.toNat ≤ 7 := by simpa [hcmd] using hgood
        exact (congrArg (memWrite · v s) (Reg.eq_data_index a hdata)).trans (memWrite_data hb _ v)
      case isFalse hcmd =>
        obtain rfl : a = 0x01 := BitVec.eq_of_toNat_eq (not_not.mp hcmd)
        split
        case h_1 e hd => exact memWrite_cmd_of_decode_error hb hd
        case h_2 i hd => exact memWrite_cmd_of_decode hb hd

/-! ### DROP -/

/-- Settles O18: of the effects a step can have, an acceptance and a reset alone clear `DROP`. -/
theorem droppedWriteSetsStickyDrop : Obligations.DroppedWriteSetsStickyDrop := by
  refine ⟨fun s a v hb => memWrite_of_busy hb a v, fun s t h hdrop => ?_⟩
  cases stepEffect_of_step h with
  | quiet _ hq => exact .inl (hq.elim (·.trans hdrop) (·.2))
  | data k v _ ht => exact .inl (ht ▸ hdrop)
  | accept i writes _ => exact .inr (.inr ⟨i, writes⟩)
  | reject c _ _ ht => exact .inl (ht ▸ hdrop)
  | complete i _ ends =>
    obtain ⟨u, hu, -, -, -, -, hkept, -⟩ := completionFreesEngine i s.spendTurn
    cases hu.symm.trans ends
    exact .inl (hkept.trans hdrop)
  | reset agent _ => exact .inr (.inl agent)

/-! ### Completions that report an error -/

/-- The prerequisites of R204, command by command. -/
theorem prerequisite_eq_false_iff (i : Instr) (s : State) : prerequisite i s = false ↔
    (i = .adjust ∧ ¬ (s.cwV = true ∧ s.adjV = false ∧ s.fcsV = true)) ∨
      (i = .charmap ∧ s.adjV = false) ∨ (i = .barmap ∧ s.chV = false) := by
  cases i with
  | adjust => simp [← prerequisite_adjust_iff]
  | charmap | barmap | nop | crc | decomp | encode | clear => simp [prerequisite]

/-- A command that succeeds found its prerequisite to hold. -/
theorem Performs.prerequisite {s u : State} {i : Instr} (h : Performs s i u) : prerequisite i s = true := by
  cases h with
  | adjust ready => exact (prerequisite_adjust_iff s).mpr ready
  | charmap _ ready _ => exact ready
  | barmap ready => exact ready
  | nop | crc | decomp | encode | clear => rfl

/-- `LOOKUP_RANGE` is tested after the prerequisite (R209). -/
theorem LookupFails.prerequisite {s : State} {i : Instr} (h : LookupFails i s) : prerequisite i s = true := by
  obtain ⟨rfl, adjusted, -⟩ | ⟨rfl, -⟩ := h
  · exact adjusted
  · rfl

/-- The prerequisite alone decides whether a completion reports `SEQUENCE` (R204). -/
theorem exec_err_sequence_iff {i : Instr} {s t : State} (h : exec i s = .next t) :
    t.err = Status.sequence.code ↔ prerequisite i s = false := by
  obtain ⟨u, hu, he⟩ | ⟨hp, he⟩ | ⟨hl, he⟩ := exec_cases i s <;> cases he.symm.trans h
  · simp [hu.prerequisite, Status.code]
  · simp [hp]
  · simp [hl.prerequisite, Status.code]

/-- Settles O52. -/
theorem sequenceRaisedExactlyWhenPrerequisiteFails : Obligations.SequenceRaisedExactlyWhenPrerequisiteFails :=
  fun i s _ h => (exec_err_sequence_iff h).trans (prerequisite_eq_false_iff i s)

/-- A completion that does not report `OK` raised an error on the state it found (R206). -/
theorem exec_of_err_ne_ok {i : Instr} {s t : State} (h : exec i s = .next t) (hne : t.err ≠ Status.ok.code) :
    t = { s with err := t.err, pend := none, busy := false } := by
  obtain ⟨u, he, -⟩ | he | he := exec_ends i s <;> cases he.symm.trans h
  · exact absurd rfl hne
  · rfl
  · rfl

/-- Settles O53: an error is raised on the state the command found, and the idle block rejects a write in one of two ways. -/
theorem errorsAreAllOrNothing : Obligations.ErrorsAreAllOrNothing := by
  refine ⟨fun i s t => exec_of_err_ne_ok, fun s a v hb hdata hcommand => ?rejected⟩
  case rejected =>
    split
    case isTrue hcmd =>
      subst hcmd
      exact memWrite_cmd_of_no_command hb (hcommand rfl)
    case isFalse hcmd =>
      exact memWrite_badWrite v hb (fun h => hcmd (BitVec.eq_of_toNat_eq h)) hdata

end Sys2Proof.Machine
end

section
/-! PROOF. Reset (spec/70_reset_and_hazards.md R230, R232), and the completion that a pending command comes to (R239). -/

namespace Sys2Proof.Machine

/-! ### Reset -/

/-- STATUS of the block after reset: the fields of `State.reset` (R232). -/
theorem readValue_status_resetBlock (s : State) : readValue 0x02 (resetBlock s) = 0x00000000 := by
  have word : statusWord (statusMid State.reset) false false = 0x00000000 := by decide
  exact (readValue_status (resetBlock s)).trans word

/-- Settles O28: the step is `resetBlock`, which leaves the registers as in `State.reset`. -/
theorem resetStepClearsBlock : Obligations.ResetStepClearsBlock := by
  refine ⟨fun _ => rfl, fun s ha => ⟨resetBlock s.spendTurn, step_of_reset ha, ?_⟩⟩
  obtain ⟨hd, hfcs, hcw, hch, hbar, -⟩ := resetValues
  exact ⟨hd, hfcs, hcw, hch, hbar, rfl, rfl, rfl, rfl, rfl, rfl, rfl, rfl, rfl, rfl, readValue_status_resetBlock _, rfl⟩

/-! ### The completion of a pending command -/

theorem SameResults.refl (s : State) : SameResults s s := sameResults_update s ..

theorem SameResults.trans {s t u : State} (h : SameResults s t) (h' : SameResults t u) : SameResults s u :=
  ⟨h'.d.trans h.d, h'.fcs.trans h.fcs, h'.cw.trans h.cw, h'.ch.trans h.ch, h'.bar.trans h.bar, h'.fcsV.trans h.fcsV,
    h'.cwV.trans h.cwV, h'.adjV.trans h.adjV, h'.chV.trans h.chV, h'.barV.trans h.barV, h'.cfg.trans h.cfg⟩

/-- The host has no say in whose turn comes next (R12). -/
@[simp] theorem hostTurn_sched (s : State) : (hostTurn s).sched = s.sched := by
  obtain ⟨-, h⟩ | ⟨a, v, -, h⟩ | ⟨a, p, h, -⟩ := hostTurn_cases s <;> rw [h]
  · exact (memWrite_frame a v _).1.sched
  · rfl

theorem steps_succ_of_step {s t : State} (h : step s = .next t) (n : Nat) : steps (n + 1) s = steps n t := by
  simp only [steps, h]

/-- Weak fairness (R239): the scheduled turns of the host run out, and the engine's comes, with the pending command and its
inputs as they were. -/
theorem exists_steps_completesNext {s : State} {i : Instr} (hb : s.busy = true) (hp : s.pend = some i)
    (noReset : Agent.reset ∉ s.sched) :
    ∃ k u, k ≤ s.sched.length ∧ steps k s = .next u ∧ SameResults s u ∧ CompletesNext u i := by
  induction hs : s.sched generalizing s with
  | nil =>
    have ha : nextAgent s = .engine := by simp [nextAgent, hs, hb]
    exact ⟨0, s, Nat.zero_le _, rfl, .refl s, ha, hb, hp⟩
  | cons a l ih =>
    have ha : nextAgent s = a := by simp only [nextAgent, hs]
    cases a with
    | engine => exact ⟨0, s, Nat.zero_le _, rfl, .refl s, ha, hb, hp⟩
    | reset => simp [hs] at noReset
    | host =>
      have hstep : step s = .next (hostTurn s.spendTurn) := step_of_host ha
      have rest : (hostTurn s.spendTurn).sched = l := by simp [hs]
      obtain ⟨held, -, busy, pending⟩ := inputsHeldWhilePending s _ hstep hb ha
      obtain ⟨k, u, hk, hsteps, hsame, completes⟩ :=
        ih busy (pending.trans hp) (rest ▸ fun hmem => noReset (hs ▸ List.mem_cons_of_mem _ hmem)) rest
      exact ⟨k + 1, u, Nat.succ_le_succ hk, (steps_succ_of_step hstep k).trans hsteps, held.trans hsame, completes⟩

/-- Settles O26: the engine's turn comes, and its completion frees the engine. -/
theorem pendingCommandCompletes : Obligations.PendingCommandCompletes := by
  intro s i hb hp noReset
  obtain ⟨k, u, hk, hsteps, same, completes⟩ := exists_steps_completesNext hb hp noReset
  obtain ⟨t, ht, pend, busy, -⟩ := completionFreesEngine i u.spendTurn
  exact ⟨k, u, t, hk, hsteps, same, completes, (step_of_completesNext completes).trans ht, ht, busy, pend⟩

end Sys2Proof.Machine
end

section
/-! PROOF. The adjustment is not applied twice (spec/70_reset_and_hazards.md R236): after it there are no raw codewords, and
DECOMP alone makes new ones. -/

namespace Sys2Proof.Machine

/-! ### Raw codewords -/

/-- There are no raw codewords for ADJUST to take: they are adjusted already, or none are valid (R124, R204). -/
def NoRawCodewords (s : State) : Prop := s.adjV = true ∨ s.cwV = false

theorem NoRawCodewords.congr {s t : State} (hs : NoRawCodewords s) (same : SameResults s t) : NoRawCodewords t := by
  rw [NoRawCodewords, same.adjV, same.cwV]
  exact hs

/-- Without raw codewords ADJUST raises `SEQUENCE` (R124). -/
theorem NoRawCodewords.exec_adjust {s : State} (hs : NoRawCodewords s) : exec .adjust s = raiseError .sequence s := by
  refine (adjustRunsOnceOrRaisesSequence s).2 ?_
  rintro ⟨valid, raw, -⟩
  simp [NoRawCodewords, valid, raw] at hs

/-- An ADJUST that ends with `OK` leaves adjusted codewords (R124). -/
theorem noRawCodewords_of_adjust_ok {s t : State} (h : exec .adjust s = .next t) (ok : t.err = 0) :
    NoRawCodewords t := by
  obtain ⟨-, he⟩ | ⟨-, he⟩ := execAdjust_cases s <;> cases he.symm.trans h
  · exact .inl rfl
  · cases ok

/-- Of the commands, DECOMP alone makes raw codewords; ENCODE adjusts those it makes (R120, R182). -/
theorem NoRawCodewords.exec_next {i : Instr} {s t : State} (hs : NoRawCodewords s) (hi : i ≠ .decomp)
    (h : exec i s = .next t) : NoRawCodewords t := by
  obtain ⟨⟨u, hu, same⟩, -⟩ := exec_next_cases h
  refine NoRawCodewords.congr ?_ same
  obtain hu | rfl := hu
  · cases hu with
    | decomp => exact absurd rfl hi
    | adjust | encode => exact .inl rfl
    | clear => exact .inr rfl
    | nop | crc | charmap | barmap => exact hs
  · exact hs

/-- Without raw codewords the commands that write codewords are DECOMP, ENCODE and CLEAR (R120, R124, R182, R183). -/
theorem NoRawCodewords.exec_cw {i : Instr} {s t : State} (hs : NoRawCodewords s) (hd : i ≠ .decomp)
    (hec : i ≠ .encode ∧ i ≠ .clear) (h : exec i s = .next t) : t.cw = s.cw := by
  obtain ⟨-, -, -, writers, -⟩ := exec_writes h
  by_contra hne
  obtain rfl | rfl | rfl | rfl := writers hne
  · exact hd rfl
  · cases hs.exec_adjust.symm.trans h
    exact hne rfl
  · exact hec.1 rfl
  · exact hec.2 rfl

/-! ### Lists of commands, and steps -/

/-- What each command of a list keeps, the list keeps. -/
theorem execAll_induction {P : State → Prop} {l : List Instr}
    (hP : ∀ i ∈ l, ∀ s t, P s → exec i s = .next t → P t) {s u : State} (hs : P s) (h : execAll l s = .next u) :
    P u := by
  induction l generalizing s with
  | nil => cases h; exact hs
  | cons i l ih =>
    obtain ⟨t, ht⟩ := exec_next i s
    rw [execAll, ht, andThen_next] at h
    exact ih (fun j hj => hP j (List.mem_cons_of_mem i hj)) (hP i List.mem_cons_self s t hs ht) h

/-- Over every step, the completion of DECOMP alone makes raw codewords (R236). -/
theorem NoRawCodewords.step_next {s t : State} (hs : NoRawCodewords s) (h : step s = .next t) :
    NoRawCodewords t ∨ CompletesNext s .decomp := by
  cases stepEffect_of_step h with
  | quiet same _ => exact .inl (hs.congr same.results)
  | data k v _ ht => subst ht; exact .inl (.inr rfl)
  | accept i _ ht => subst ht; exact .inl hs
  | reject c _ _ ht => subst ht; exact .inl hs
  | complete i completes ends =>
    by_cases hi : i = .decomp
    · exact .inr (hi ▸ completes)
    · exact .inl (NoRawCodewords.exec_next (s := s.spendTurn) hs hi ends)
  | reset _ ht => subst ht; exact .inl (.inr rfl)

/-- Settles O42: an ADJUST that ended with `OK` leaves no raw codewords, and without DECOMP there come none. -/
theorem adjustmentAppliedExactlyOnce : Obligations.AdjustmentAppliedExactlyOnce := by
  refine ⟨fun s t u l hadj ok noDecomp hl => ?_, fun s t h hs => NoRawCodewords.step_next hs h⟩
  have noRaw : NoRawCodewords t := noRawCodewords_of_adjust_ok hadj ok
  refine ⟨NoRawCodewords.exec_adjust ?sequence, fun kept => ?cw⟩
  case sequence => exact execAll_induction (fun i hi _ _ hv => hv.exec_next (noDecomp i hi)) noRaw hl
  case cw =>
    obtain ⟨-, hcw⟩ : NoRawCodewords u ∧ u.cw = t.cw := by
      refine execAll_induction (P := fun v => NoRawCodewords v ∧ v.cw = t.cw) ?_ ⟨noRaw, rfl⟩ hl
      rintro i hi v w ⟨hv, hcw⟩ h
      exact ⟨hv.exec_next (noDecomp i hi) h, (hv.exec_cw (noDecomp i hi) (kept i hi) h).trans hcw⟩
    exact hcw

end Sys2Proof.Machine
end
